-- ==== Sys2Proof/Word.lean ====
section
/-! DEFINITION. Word.lean: the bit vectors of the manual and the plainest packing of them. -/

namespace Sys2Proof

/-- One byte: the data of a line character, a byte of a port, of the console or of the boot memory. -/
abbrev Byte := BitVec 8

/-- The 13 bit times of one line character (R20, R62): bit 0 is the start bit, bit 12 the stop bit;
a set bit is dominant. -/
abbrev Samples := BitVec 13

/-- A set of stations: bit k is station k (R62: V1 to V3 in order). -/
abbrev StationSet := BitVec 24

/-- The high byte of a 16-bit field (00 section 0.8: most significant byte first). -/
def hiByte (n : Nat) : Byte := BitVec.ofNat 8 (n / 256)

/-- The low byte of a 16-bit field. -/
def loByte (n : Nat) : Byte := BitVec.ofNat 8 n

/-- A 16-bit field from its two bytes. -/
def wordOf (hi lo : Byte) : Nat := hi.toNat * 256 + lo.toNat

end Sys2Proof
end

