-- ==== Sys2Proof/Config.lean ====
section
/-! DEFINITION. Config.lean: the constants every PL24 has, and the one free value. -/

namespace Sys2Proof.Config

/-- Nanoseconds in one tempo tick (00 section 0.8: 10,000 ticks per second). -/
def tickNs : Nat := 100000

/-- Nanoseconds in one millisecond of settle time (R97). -/
def msNs : Nat := 1000000

/-- Nanoseconds in one unit of the frame interval, a tenth of a millisecond (R8). -/
def frameUnitNs : Nat := 100000

/-- The bit rate of the caption output (R153). -/
def captionRate : Nat := 115200

/-- Nanoseconds that the 16 bytes of a caption record take, 10 bit times each, back to back (R153). -/
def captionNs : Nat := 16 * 10 * 1000000000 / captionRate

/-- Bit times of a character (R20). -/
def charBits : Nat := 13

/-- The last position that carries a character (R23). -/
def lastPosition : Nat := 41

/-- The notice queue holds 0 to 32 records (R193). -/
def noticeRoom : Nat := 32

/-- Counts reported in one byte saturate here (R33, R43, R55). -/
def countMax : Nat := 255

/-- The highest bar (00 section 0.8). -/
def lastBar : Nat := 9999

/-- Stations are numbered 0 to 23 (R2). -/
def stations : Nat := 24

/-- The slots of a patch port (R11, R95). -/
def slots : Nat := 16

/-- FREE VALUE (log entry 8). R193: two postings that reach the queue together join in either order.
The place a posting takes among the postings of other blocks in the same step; nothing constrains it. -/
opaque postingPlace : Nat → Nat

end Sys2Proof.Config
end

