-- ==== Sys2Proof/Syntax.lean ====
section
/-! DEFINITION. Syntax.lean: the show image (Chapter 1) and the commands, one constructor per row of
spec/opcode_table.json. The table gives the rows no bit fields; the operands are what each event brings. -/

namespace Sys2Proof

/-- The three camera sources (Chapter 7), also the names of the three sync inputs. -/
inductive Source where
  | front | lowlight | wide
  deriving DecidableEq, Repr

/-- The two patch ports (R91). -/
inductive Port where
  | a | b
  deriving DecidableEq, Repr

/-- A value for each patch port. -/
structure Ports (α : Type) where
  a : α
  b : α
  deriving DecidableEq, Repr

/-- A value for each click lane 0 to 3. -/
structure Lanes (α : Type) where
  l0 : α
  l1 : α
  l2 : α
  l3 : α
  deriving DecidableEq, Repr

/-- A value for each sync input. -/
structure Inputs (α : Type) where
  front : α
  lowlight : α
  wide : α
  deriving DecidableEq, Repr

/-- A ramp of a click part (R5): target tempo and length in beats. -/
structure RampPart where
  target : Nat
  length : Nat
  deriving DecidableEq, Repr

/-- A vamp of a click part (R5); repeat count 0 is open. -/
structure VampPart where
  start : Nat
  length : Nat
  repeats : Nat
  deriving DecidableEq, Repr

/-- A click part (R5). Bit b - 1 of accents is the accent flag of beat b. -/
structure ClickPart where
  tempo : Nat
  meter : Nat
  subdivision : Nat
  accents : BitVec 16
  lanes : Lanes Bool
  ramp : Option RampPart
  vamp : Option VampPart
  deriving DecidableEq, Repr

/-- An auto-GO point (R6). -/
structure AutoGo where
  bar : Nat
  beat : Nat
  deriving DecidableEq, Repr

/-- A cue record (R3). A cue without a click part is a FREE cue. -/
structure Cue where
  label : List Byte
  startBar : Nat
  resumeSafe : Bool
  click : Option ClickPart
  autoGo : Option AutoGo
  deriving DecidableEq, Repr

/-- The roles of a station (R8). -/
structure Roles where
  caller : Bool
  sm : Bool
  video : Bool
  videoCritical : Bool
  deriving DecidableEq, Repr

/-- A lane's mode (R9). -/
structure LaneMode where
  toggle : Bool
  subdivisions : Bool
  deriving DecidableEq, Repr

/-- A patch action (R11). A port of none is a stored value that is neither A nor B (log entry 38). -/
structure PatchAction where
  port : Option Port
  slot : Nat
  bytes : List Byte
  settle : Option Nat
  deriving DecidableEq, Repr

/-- A patch part (R10): the pool actions first to first + count - 1. -/
structure PatchPart where
  first : Nat
  count : Nat
  deriving DecidableEq, Repr

/-- A video part (R10). Value other is a stored value that is none of the four (log entry 38). -/
inductive VideoPart where
  | source (s : Source)
  | keep
  | other
  deriving DecidableEq, Repr

/-- A per-cue entry of the per-station part (R10). -/
structure CueEntry where
  cue : Nat
  patch : Option PatchPart
  video : Option VideoPart
  deriving DecidableEq, Repr

/-- The show image: the show-wide part (R2, R3) and the per-station part (R8). Its fields are the
values as received, in range or not; the cue count is the number of cue records. A failover entry of none
is a stored value that is none of the three sources (log entry 38). -/
structure Image where
  showId : BitVec 16
  lineRate : Nat
  period : Nat
  patience : Nat
  resumePatience : Nat
  callers : StationSet
  ranking : List Nat
  cues : List Cue
  station : Nat
  roles : Roles
  goDownbeat : Bool
  lanes : Lanes LaneMode
  portRates : Ports Nat
  pool : List PatchAction
  entries : List CueEntry
  frameInterval : Nat
  failover : List (Option Source)
  deriving DecidableEq, Repr

/-- What the received bytes read as under the arrangement agreed between the show-building tool and the
loader (1.6, R14 FORMAT; log entry 5): all the fields, or no proper arrangement of them, with the
station number where that field was received (R15). -/
inductive Reading where
  | fields (image : Image)
  | unformed (station : Option Nat)
  deriving DecidableEq, Repr

/-- The commands: one constructor per row of spec/opcode_table.json. Instants are in nanoseconds
(log entry 1); an instant of 0 names none later than the one reached. -/
inductive Instr where
  /-- COLD_RESET (R12). -/
  | coldReset
  /-- BYTE_ARRIVAL (R13): one byte of the boot memory. -/
  | byteArrival (byte : Byte)
  /-- IMAGE_ACCEPTED (R16): the instant and the fields the checked bytes read as. -/
  | imageAccepted (t : Nat) (image : Image)
  /-- FAILED (R15): what the received bytes read as. -/
  | failed (reading : Reading)
  /-- ROUND_OPENING (R24): a leading edge with no round in progress, its instant, and how many bit
  times the line had sampled recessive just before it. -/
  | roundOpening (t : Nat) (recessive : Nat)
  /-- ROUND_TIMER_EXPIRY (R25): whether the line sampled recessive throughout since the timer last started. -/
  | roundTimerExpiry (silent : Bool)
  /-- LISTEN_TIMER_EXPIRY (R45): as for the round timer. -/
  | listenTimerExpiry (silent : Bool)
  /-- MARK_SEEN (R26): the 13 bit times sampled at position 1. -/
  | markSeen (c : Samples)
  /-- VOTE_FIELD_START (R27). -/
  | voteFieldStart
  /-- LOCAL_VOTE_FIELD_START (R44). -/
  | localVoteFieldStart
  /-- VOTE_FIELD_COMPLETE (R29): the bit times sampled at positions 2 to 5. -/
  | voteFieldComplete (v0 v1 v2 v3 : Samples)
  /-- LOCAL_VOTE_FIELD_COMPLETE (R44). -/
  | localVoteFieldComplete
  /-- LINE_FAULT (R38): its instant. -/
  | lineFault (t : Nat)
  /-- BREAK_START (R35): the position that begins at the boundary, counted on past 41, the bit times of the
  character ending there, and the instant of the boundary. -/
  | breakStart (position : Nat) (before : Samples) (t : Nat := 0)
  /-- BREAK_SEEN (R36): the instant of the 13th dominant bit. -/
  | breakSeen (t : Nat := 0)
  /-- TALK_SLOT_START (R32). -/
  | talkSlotStart (slot : Fin 3)
  /-- LOCAL_TALK_SLOT_START (R44). -/
  | localTalkSlotStart (slot : Fin 3)
  /-- SEND_COMPLETE (R34). -/
  | sendComplete
  /-- FAILED_SEND (R33). -/
  | failedSend
  /-- TALK_SLOT_END (R52). -/
  | talkSlotEnd (slot : Fin 3)
  /-- MALFORMED_MESSAGE (R53). -/
  | malformedMessage
  /-- TALLY_ARRIVAL (R182). -/
  | tallyArrival
  /-- CALL_ARRIVAL (R69). -/
  | callArrival
  /-- RESUME_ARRIVAL (R173). -/
  | resumeArrival
  /-- HALT_ARRIVAL (R164). -/
  | haltArrival
  /-- TEMPO_ARRIVAL (R130). -/
  | tempoArrival
  /-- CAMERA_ARRIVAL (R145). -/
  | cameraArrival
  /-- LOAD_STEP (R98): the port and the instant. -/
  | loadStep (port : Port) (t : Nat := 0)
  /-- SCAN_STEP (R102): its instant. -/
  | scanStep (t : Nat := 0)
  /-- ACTION_SENT (R96), taken at the instant the port's rate gives the send in progress; t: an instant by which
  it has come. -/
  | actionSent (port : Port) (t : Nat)
  /-- SETTLE_EXPIRY (R97). -/
  | settleExpiry (port : Port)
  /-- BEAT_TIMER_EXPIRY (R118). -/
  | beatTimerExpiry
  /-- SHADOW_TIMER_EXPIRY (R120). -/
  | shadowTimerExpiry
  /-- SUB_TIMER_EXPIRY (R126). -/
  | subTimerExpiry
  /-- FRAME_SYNC (R143): the input, the instant, and CAP_READY as sampled. -/
  | frameSync (input : Source) (t : Nat) (capReady : Bool)
  /-- FRAME_WINDOW_EXPIRY (R144). -/
  | frameWindowExpiry (input : Source)
  /-- SLATE_TIMER_EXPIRY (R154): CAP_READY as sampled. -/
  | slateTimerExpiry (capReady : Bool)
  /-- CAPTION_SENT (R153). -/
  | captionSent
  /-- STOP_PRESS (R159, R195): a filtered level asserted, whether the line's filtered level was deasserted
  since the press before (log entry 32), and its instant (log entry 1). -/
  | stopPress (released : Bool := true) (t : Nat := 0)
  /-- RELEASE_PRESS (R169, R195): released as for STOP_PRESS. -/
  | releasePress (released : Bool := true)
  /-- GO_PRESS (R67, R195): released as for STOP_PRESS. -/
  | goPress (released : Bool := true)
  /-- TAP_PRESS (R131, R195): its instant; released as for STOP_PRESS. -/
  | tapPress (t : Nat) (released : Bool := true)
  /-- SAFETY_ASSERTION (R160), at its instant. -/
  | safetyAssertion (t : Nat := 0)
  /-- SAFETY_DEASSERTION (R160). -/
  | safetyDeassertion
  /-- ATTEND_LINE_CHANGE (R196): the new filtered level. -/
  | attendLineChange (asserted : Bool)
  /-- CONSOLE_STATUS (R194). -/
  | consoleStatus
  /-- OVERFLOW_CLEAR (R194): the ninth STATUS reply byte ends. -/
  | overflowClear
  /-- CONSOLE_POSITION (R191). -/
  | consolePosition
  /-- CONSOLE_NOTICE (R193). -/
  | consoleNotice
  /-- NOTICE_REMOVAL (R193): the seventh NOTICE reply byte ends. -/
  | noticeRemoval
  /-- CONSOLE_GO (R67). -/
  | consoleGo (target : BitVec 16) (whenArg : Byte)
  /-- CONSOLE_STOP (R159), at its instant. -/
  | consoleStop (detail : Byte) (t : Nat := 0)
  /-- CONSOLE_RELEASE (R169). -/
  | consoleRelease
  /-- CONSOLE_RESUME (R172). -/
  | consoleResume (cue bar : BitVec 16) (countIn mask : Byte)
  /-- CONSOLE_CAMERA (R191). -/
  | consoleCamera (source : Byte)
  /-- CONSOLE_TEMPO (R191). -/
  | consoleTempo (tempo : BitVec 16) (whenArg : Byte)
  /-- CONSOLE_ATTEND (R196). -/
  | consoleAttend (arg : Byte)
  /-- CONSOLE_RESTART (R192). -/
  | consoleRestart
  /-- UNKNOWN_COMMAND (R190): the command code. -/
  | unknownCommand (code : Byte)
  /-- WARM_RESET (R192): its instant. -/
  | warmReset (t : Nat)
  /-- CHARACTER_RECEIVED (R21): the position, 6 to 41, and its 13 bit times. -/
  | characterReceived (position : Nat) (c : Samples)
  /-- RECEIVER_RESYNCHRONISED (R22). -/
  | receiverResynchronised
  deriving DecidableEq, Repr

end Sys2Proof
end

