-- ==== Sys2Proof/WellFormed.lean ====
section
/-! DEFINITION. WellFormed.lean: what the manual requires of a command's operands. -/

namespace Sys2Proof

/-- The command codes that R64 lists. -/
def listedCodes : List Byte :=
  [0x01, 0x02, 0x03, 0x10, 0x11, 0x12, 0x13, 0x14, 0x15, 0x16, 0x1F]

/-- The operands are ones the event can bring. R23: positions are numbered from 1, and a break falls at
a position. R21: the message decoder takes characters at positions 6 to 41. R190: an unknown command's
code is one that R64 does not list. Every other command has operands of every value of its types. -/
def Instr.wellFormed : Instr → Bool
  | .breakStart p _ _ => decide (1 ≤ p)
  | .characterReceived p _ => decide (6 ≤ p ∧ p ≤ Config.lastPosition)
  | .unknownCommand code => !(listedCodes.contains code)
  | .coldReset | .byteArrival _ | .imageAccepted _ _ | .failed _ | .roundOpening _ _
  | .roundTimerExpiry _ | .listenTimerExpiry _ | .markSeen _ | .voteFieldStart
  | .localVoteFieldStart | .voteFieldComplete _ _ _ _ | .localVoteFieldComplete | .lineFault _
  | .breakSeen _ | .talkSlotStart _ | .localTalkSlotStart _ | .sendComplete | .failedSend
  | .talkSlotEnd _ | .malformedMessage | .tallyArrival | .callArrival | .resumeArrival
  | .haltArrival | .tempoArrival | .cameraArrival | .loadStep _ _ | .scanStep _ | .actionSent _ _
  | .settleExpiry _ | .beatTimerExpiry | .shadowTimerExpiry | .subTimerExpiry | .frameSync _ _ _
  | .frameWindowExpiry _ | .slateTimerExpiry _ | .captionSent | .stopPress _ _ | .releasePress _
  | .goPress _ | .tapPress _ _ | .safetyAssertion _ | .safetyDeassertion | .attendLineChange _
  | .consoleStatus | .overflowClear | .consolePosition | .consoleNotice | .noticeRemoval
  | .consoleGo _ _ | .consoleStop _ _ | .consoleRelease | .consoleResume _ _ _ _
  | .consoleCamera _ | .consoleTempo _ _ | .consoleAttend _ | .consoleRestart | .warmReset _
  | .receiverResynchronised => true

end Sys2Proof
end

