-- ==== Sys2Proof/Decode.lean ====
section
/-! DEFINITION. Decode.lean: no row of spec/opcode_table.json gives bits (all 62 have "fields": [] and no
fixed bits): the block takes commands, not instruction words. The bytes of a console frame do spell
commands (R64, R190), and their reading is here. -/

namespace Sys2Proof

/-- The command a word spells by the table's bits: none, since no row gives bits. -/
def decodeTableWord (_nbits _w : Nat) : Option Instr := none

/-! ## Console frames (R64, R190) -/

/-- R64: how many argument bytes a listed code takes; none for a code that R64 does not list. -/
def consoleArgs (code : Byte) : Option Nat :=
  match code.toNat with
  | 0x01 | 0x02 | 0x03 | 0x12 | 0x1F => some 0
  | 0x11 | 0x14 | 0x16 => some 1
  | 0x10 | 0x15 => some 3
  | 0x13 => some 6
  | _ => none

/-- A 16-bit argument, most significant byte first (00 section 0.8). -/
def argOf (hi lo : Byte) : BitVec 16 := BitVec.ofNat 16 (wordOf hi lo)

/-- R64: the command of a listed code with its argument bytes, which are as many as the code takes. -/
def consoleCommand (code : Byte) (args : List Byte) : Option Instr :=
  match code.toNat, args with
  | 0x01, [] => some .consoleStatus
  | 0x02, [] => some .consolePosition
  | 0x03, [] => some .consoleNotice
  | 0x10, [hi, lo, w] => some (.consoleGo (argOf hi lo) w)
  | 0x11, [d] => some (.consoleStop d)
  | 0x12, [] => some .consoleRelease
  | 0x13, [ch, cl, bh, bl, n, m] => some (.consoleResume (argOf ch cl) (argOf bh bl) n m)
  | 0x14, [x] => some (.consoleCamera x)
  | 0x15, [hi, lo, w] => some (.consoleTempo (argOf hi lo) w)
  | 0x16, [a] => some (.consoleAttend a)
  | 0x1F, [] => some .consoleRestart
  | _, _ => none

/-- R190: the command whose event a frame reaches by the bytes shifted in since chip select: an unlisted code
at the end of the command byte, a listed one at the end of its last argument byte; none before it. Bytes
after the arguments are not read. -/
def frameCommand : List Byte → Option Instr
  | [] => none
  | code :: bytes =>
    match consoleArgs code with
    | none => some (.unknownCommand code)
    | some n => consoleCommand code (bytes.take n)

/-- R190: the bits of a byte in the order they are shifted, most significant first. -/
def shiftOut (b : Byte) : List Bool := (List.range 8).map (fun k => b.getLsbD (7 - k))

/-- R190: the byte of eight bits shifted in, most significant first. -/
def shiftIn (bits : List Bool) : Byte :=
  bits.foldl (fun b x => b + b + (if x then 1 else 0)) 0

end Sys2Proof
end

