-- ==== Sys2Proof/Machine/State.lean ====
section
/-! DEFINITION. Machine/State.lean: everything the manual gives the station to hold, as plain data, block by
block (00 section 0.3), and the state after a cold reset. -/

namespace Sys2Proof.Machine

/-- Why the machine stops with a fault: never. The manual has no event that stops the station; a line
fault (R38) and a load fault (R14) are transitions to ISOLATED and FAILED. No constructor: nothing raises one. -/
inductive Fault where
  deriving DecidableEq, Repr

/-- Why a command has no meaning. -/
inductive Refusal where
  /-- Raised by an arm of exec whose command is not modelled yet. No arm raises it. Safe. -/
  | notModelled (mnemonic : String)
  deriving DecidableEq, Repr

/-! ## CON -/

/-- The loader's states (R12). -/
inductive LoaderState where
  | loading | checking | accepted | failed
  deriving DecidableEq, Repr

/-- Notice kinds (R65). -/
inductive NoticeKind where
  | restart | cue | cueLate | patchLate | callDropped | stop | standby | resume | resumeTimeout
  | camera | line | image | showMismatch | ignored
  deriving DecidableEq, Repr

/-- A notice record (R65). -/
structure Notice where
  kind : NoticeKind
  round : Byte
  cue : Nat
  station : Nat
  detail1 : Nat
  detail2 : Nat
  deriving DecidableEq, Repr

/-- Who posted a notice in the current step. Postings of one origin keep their order; postings of
different origins join in either order (R193, log entry 8). -/
inductive Origin where
  | le | spu | spuDrop | psqA | psqB | vsl | con
  deriving DecidableEq, Repr

/-- The console frame under way past its command event (R190): a STATUS frame with the overflow flag it
captured and whether a record was discarded since (R194); a NOTICE frame with a record selected (R193);
any other frame; or none. -/
inductive Frame where
  | closed
  | status (overflow discarded : Bool)
  | notice
  | other
  deriving DecidableEq, Repr

/-- The input lines whose filtered changes to asserted are presses (R195). -/
inductive Button where
  | stop | release | go | tap
  deriving DecidableEq, Repr

/-- The filtered levels of those lines (R195): true is asserted. -/
structure ButtonLines where
  stop : Bool
  release : Bool
  go : Bool
  tap : Bool
  deriving DecidableEq, Repr

/-- What CON owns (00 section 0.3, Chapters 1 and 10). -/
structure Con where
  loader : LoaderState
  received : List Byte
  sum : BitVec 16
  declared : Option Nat
  lengthFault : Bool
  notices : List Notice
  overflow : Bool
  together : List (Origin × Notice)
  frame : Frame
  reply : List Byte
  restartOwed : Bool
  safetyLine : Bool
  buttons : ButtonLines
  attendLine : Bool
  attendFlag : Bool
  attendPosted : Bool
  lamp : Bool
  deriving DecidableEq, Repr

/-! ## Messages -/

/-- Message kinds (R48). -/
inductive MessageKind where
  | tally | call | tempo | halt | resume | camera
  deriving DecidableEq, Repr

/-- Show states (R66). -/
inductive ShowState where
  | preshow | run | stopped | standby | countin
  deriving DecidableEq, Repr

/-- The fields of a TALLY (R49). -/
structure TallyFields where
  showId : Nat
  cue : Nat
  bar : Nat
  beat : Nat
  pass : Nat
  showState : ShowState
  vampActive : Bool
  late : Bool
  suspect : Bool
  camfail : Bool
  deriving DecidableEq, Repr

/-- The fields of a CALL (R50): downbeat is "when" 1. -/
structure CallFields where
  base : Nat
  target : Nat
  downbeat : Bool
  deriving DecidableEq, Repr

/-- The fields of a TEMPO (R51): atOnce is "when" 1. -/
structure TempoFields where
  tempo : Nat
  atOnce : Bool
  deriving DecidableEq, Repr

/-- HALT reasons (R51). -/
inductive StopReason where
  | button | console | safety | video
  deriving DecidableEq, Repr

/-- The fields of a HALT (R51). -/
structure HaltFields where
  reason : StopReason
  detail : Byte
  deriving DecidableEq, Repr

/-- The restore mask of a RESUME (R50). -/
structure RestoreMask where
  tempo : Bool
  camera : Bool
  vamp : Bool
  deriving DecidableEq, Repr

/-- The fields of a RESUME (R50). -/
structure ResumeFields where
  cue : Nat
  bar : Nat
  countIn : Nat
  mask : RestoreMask
  deriving DecidableEq, Repr

/-- A message whole: kind and fields (R48). A CAMERA of none is FOLLOW-CUE (R51). -/
inductive Message where
  | tally (f : TallyFields)
  | call (f : CallFields)
  | tempo (f : TempoFields)
  | halt (f : HaltFields)
  | resume (f : ResumeFields)
  | camera (source : Option Source)
  deriving DecidableEq, Repr

/-- A message as its characters carry it: kind, sender, body bytes (R48). -/
structure RawMessage where
  kind : MessageKind
  sender : Nat
  body : List Byte
  deriving DecidableEq, Repr

/-! ## LE -/

/-- The Line Engine states (02 section 2.10). -/
inductive LineState where
  | offline | listen | joined | isolated
  deriving DecidableEq, Repr

/-- The seven contributions of V0 (R62). -/
structure Contributions where
  stop : Bool
  notReady : Bool
  dissent : Bool
  beat : Bool
  downbeat : Bool
  camfail : Bool
  attend : Bool
  deriving DecidableEq, Repr

/-- How far a round has come: opened, its MARK judged (R26), its vote field started (R27), its vote
field judged (R28). -/
inductive Stage where
  | opening | marked | voting | judged
  deriving DecidableEq, Repr

/-- The round in progress on the line (R23 to R28). own: opened with the station's own MARK; markDriven
and votesDriven: what the station drove in positions 1 to 5; breaks: bit p set when a break was driven at
position p; readBackFailed: a driven dominant bit of position 1 read recessive; clean: the judgement. -/
structure Round where
  edge : Nat
  own : Bool
  stage : Stage
  markGood : Bool
  onPeriod : Bool
  markDriven : Samples
  votesDriven : List Samples
  breaks : BitVec 6
  readBackFailed : Bool
  clean : Bool
  deriving DecidableEq, Repr

/-- A local round (R44): its opening instant and how far it has come. -/
structure LocalRound where
  edge : Nat
  stage : Stage
  deriving DecidableEq, Repr

/-- The message decoder's states (R52). -/
inductive Decoder where
  | idle
  | assembling (kind : MessageKind) (sender : Nat) (body : List Byte)
  | done
  | discarding
  deriving DecidableEq, Repr

/-- A talk queue entry (R56). -/
structure Entry where
  message : Message
  inFlight : Bool
  renewed : Bool
  deriving DecidableEq, Repr

/-- The send under way (R32, R58): its slot, its length in characters, and whether it is a queue entry
or a TALLY made on the spot. -/
structure Send where
  slot : Nat
  length : Nat
  queued : Bool
  deriving DecidableEq, Repr

/-- What LE owns (00 section 0.3, Chapters 2 and 3). drive: the characters LE drives one after the other,
the first from the instant driveFrom on; after the last one the line is released. breakUntil: where the break
last driven ends, or what a warm reset lets LE finish (R47). -/
structure Le where
  state : LineState
  localRunning : Bool
  roundTimer : Option Nat
  lastExpiry : Option Nat
  listenTimer : Option Nat
  lastListen : Option Nat
  dominantSeen : Bool
  hunting : Bool
  round : Option Round
  localRound : Option LocalRound
  roundCount : Byte
  thisMap : StationSet
  lastMap : StationSet
  blind : Bool
  owners : List Nat
  beatSource : Option Nat
  cleanRun : Nat
  silenceCount : Nat
  readBackRun : Nat
  isolationCount : Nat
  clashCount : Nat
  lineFaultCount : Nat
  shortCount : Nat
  badCount : Nat
  resync : Bool
  breakPending : Bool
  breakDriving : Option Nat
  breakUntil : Nat
  drive : List Samples
  driveFrom : Nat
  sampled : Contributions
  decoder : Decoder
  received : Option RawMessage
  mismatch : StationSet
  queue : List Entry
  waitingHalt : Option HaltFields
  send : Option Send
  sentInSlot : Bool
  deriving DecidableEq, Repr

/-! ## SPU -/

/-- A pending or observed CALL (R66). -/
structure HeldCall where
  proposer : Nat
  call : CallFields
  patience : Nat
  deriving DecidableEq, Repr

/-- A pending RESUME (R66). -/
structure HeldResume where
  proposer : Nat
  resume : ResumeFields
  patience : Nat
  deriving DecidableEq, Repr

/-- The pending proposal (R66): never a CALL and a RESUME together. -/
inductive Proposal where
  | call (c : HeldCall)
  | resume (r : HeldResume)
  deriving DecidableEq, Repr

/-- The armed GO (R66). -/
structure Armed where
  proposer : Nat
  call : CallFields
  forced : Bool
  observed : Bool
  deriving DecidableEq, Repr

/-- The stop snapshot (R166). vamp is the pass of an active vamp, none while inactive. -/
structure Snapshot where
  cue : Nat
  bar : Nat
  beat : Nat
  vamp : Option Nat
  tempo : Nat
  tempoOverride : Option Nat
  cameraOverride : Option Source
  deriving DecidableEq, Repr

/-- The restart record (R158). -/
structure RestartRecord where
  bar : Nat
  pass : Option Nat
  deriving DecidableEq, Repr

/-- What SPU owns (00 section 0.3, Chapters 4, 8 and 9). -/
structure Spu where
  cue : Nat
  showState : ShowState
  suspect : Bool
  late : Bool
  launchPending : Bool
  lastTransition : Option (Nat × Nat)
  proposal : Option Proposal
  observed : Option HeldCall
  armed : Option Armed
  awaitingCall : Bool
  callWindow : Option CallFields
  dissent : Bool
  ownStop : Bool
  stopPosted : Bool
  origin : List Nat
  snapshot : Option Snapshot
  resumeWindow : Option ResumeFields
  awaitingResume : Bool
  restart : Option RestartRecord
  refWait : Nat
  restartRecall : Bool
  deriving DecidableEq, Repr

/-! ## PSQ -/

/-- Port states (R92). -/
inductive PortState where
  | idle | sending | settling | held
  deriving DecidableEq, Repr

/-- Buffer kinds (R94). -/
inductive BufferKind where
  | delta | recall
  deriving DecidableEq, Repr

/-- The load under way for a LOADING buffer (R94): a DELTA load with the actions read and the references
kept (R98), or membership of the recall scan. -/
inductive Load where
  | delta (next : Nat) (kept : List Nat)
  | recall
  deriving DecidableEq, Repr

/-- The next buffer of a port (R94). -/
inductive Buffer where
  | empty
  | loading (target : Nat) (load : Load) (due : Bool)
  | staged (target : Nat) (kind : BufferKind) (refs : List Nat)
  | deferred (target : Nat) (kind : BufferKind) (refs : List Nat)
  deriving DecidableEq, Repr

/-- What PSQ holds for one port (R92 to R97). sendEnd: where the last stop bit of the send in progress ends,
at the port's rate; settle: the pending settle expiry. -/
structure PortRec where
  state : PortState
  list : List Nat
  buffer : Buffer
  slots : List (Option Nat)
  sendEnd : Option Nat
  settle : Option Nat
  deriving DecidableEq, Repr

/-- Purposes of a scan and kinds of a pending target (R99, R101). -/
inductive Purpose where
  | call | resume
  deriving DecidableEq, Repr

/-- A running recall scan (R101). -/
structure Scan where
  target : Nat
  purpose : Purpose
  cursor : Nat
  found : Ports (List (Option Nat))
  served : Ports Bool
  deriving DecidableEq, Repr

/-- The queued scan (R101). -/
structure QueuedScan where
  target : Nat
  purpose : Purpose
  served : Ports Bool
  deriving DecidableEq, Repr

/-- The pending target PSQ holds (R99). -/
structure PendingTarget where
  target : Nat
  kind : Purpose
  deriving DecidableEq, Repr

/-- What PSQ owns (00 section 0.3, Chapter 5). -/
structure Psq where
  ports : Ports PortRec
  scan : Option Scan
  queued : Option QueuedScan
  target : Option PendingTarget
  hold : Bool
  notReady : Bool
  deriving DecidableEq, Repr

/-! ## CKE -/

/-- Click voices (R127, 10.5). -/
inductive Voice where
  | accent | beat | sub | count
  deriving DecidableEq, Repr

/-- One lane's output (R127). voice: the pulse lane's voice lines; level: the toggle lane's line;
pulses: how many strobe pulses the lane gave (log entry 31). -/
structure LaneOut where
  voice : Voice
  level : Bool
  pulses : Nat
  deriving DecidableEq, Repr

/-- A ramp under way (R115). -/
structure RampState where
  start : Nat
  target : Nat
  length : Nat
  step : Nat
  deriving DecidableEq, Repr

/-- An active vamp (R115): its pass and, for a counted vamp, the passes left. -/
structure VampState where
  pass : Nat
  left : Option Nat
  deriving DecidableEq, Repr

/-- A count-in (R115). -/
structure CountIn where
  bars : Nat
  bar : Nat
  deriving DecidableEq, Repr

/-- A loaded compare point (R115, R136). -/
structure ComparePoint where
  bar : Nat
  beat : Nat
  cue : Nat
  deriving DecidableEq, Repr

/-- A running beat timer (R118): pending expiry, the expiry last taken and the tempo it reloaded with. -/
structure BeatTimer where
  pending : Nat
  last : Option Nat
  reload : Nat
  deriving DecidableEq, Repr

/-- The shadow timer (R120). -/
inductive Shadow where
  | stopped
  | running (pending : Nat)
  | lapsed
  deriving DecidableEq, Repr

/-- What CKE owns (00 section 0.3, R115). part: the click part the last cue start applied, none in a FREE
cue; resume: the pass a resume start handed, until its restart downbeat (log entry 26). -/
structure Cke where
  tempo : Nat
  override : Option Nat
  ramp : Option RampState
  bar : Nat
  beat : Nat
  vamp : Option VampState
  launch : Bool
  armedTarget : Option Nat
  countIn : Option CountIn
  compare : Option ComparePoint
  part : Option ClickPart
  resume : Option (Option Nat)
  beatTimer : Option BeatTimer
  beatPosted : Bool
  downbeatPosted : Bool
  dueSampled : Bool
  shadow : Shadow
  subOwed : Nat
  subInterval : Nat
  subNext : Option Nat
  lanes : Lanes LaneOut
  tap : Option Nat
  deriving DecidableEq, Repr

/-! ## VSL -/

/-- Sync monitor states (R141). -/
inductive LockState where
  | unlocked
  | locking (good : Nat)
  | locked
  deriving DecidableEq, Repr

/-- A sync monitor (R141, R143, R144). -/
structure Monitor where
  lock : LockState
  misses : Nat
  expired : Bool
  window : Option Nat
  deriving DecidableEq, Repr

/-- The caption composer (R153): while sending, the record and where its last stop bit ends; the bytes left
follow from the instant (Composer.bytesLeft). -/
inductive Composer where
  | idle
  | sending (record : List Byte) (ends : Nat)
  deriving DecidableEq, Repr

/-- What VSL owns (00 section 0.3, R141). -/
structure Vsl where
  monitors : Inputs Monitor
  table : List Source
  override : Option Source
  desired : Option Source
  live : Option Source
  pendingSwitch : Option Source
  camfail : Bool
  pitCamfail : Bool
  composer : Composer
  slate : Option Nat
  deriving DecidableEq, Repr

/-! ## The station -/

/-- The whole station: the commands waiting, the model's instant and free-choice counter (log entries 1,
8), the held image (R1) and the six blocks. readings is the model's own: what each string of received bytes reads
as under the agreed arrangement (1.6), as far as a check has looked: a free function of the bytes (R14; log
entry 5). -/
structure State where
  pending : List Instr
  now : Nat
  draws : Nat
  readings : List (List Byte × Reading)
  image : Option Image
  con : Con
  le : Le
  spu : Spu
  psq : Psq
  cke : Cke
  vsl : Vsl
  deriving DecidableEq, Repr

/-! ## After a cold reset -/

/-- The RESTART (cold) record of R194. -/
def Notice.restartCold : Notice :=
  { kind := .restart, round := 0, cue := 0, station := 255, detail1 := 1, detail2 := 0 }

/-- CON after a cold reset (R12, R194, R195, R196): the RESTART record alone, then a fresh load. -/
def Con.cold : Con :=
  { loader := .loading, received := [], sum := 0, declared := none, lengthFault := false,
    notices := [Notice.restartCold], overflow := false, together := [], frame := .closed, reply := [],
    restartOwed := false, safetyLine := false,
    buttons := { stop := false, release := false, go := false, tap := false },
    attendLine := false, attendFlag := false, attendPosted := false, lamp := false }

/-- No contribution. -/
def Contributions.clear : Contributions :=
  { stop := false, notReady := false, dissent := false, beat := false, downbeat := false,
    camfail := false, attend := false }

/-- LE after a cold reset (R46, R55, R59, R61). -/
def Le.cold : Le :=
  { state := .offline, localRunning := false, roundTimer := none, lastExpiry := none,
    listenTimer := none, lastListen := none, dominantSeen := false, hunting := false, round := none,
    localRound := none, roundCount := 0, thisMap := 0, lastMap := 0, blind := false, owners := [],
    beatSource := none, cleanRun := 0, silenceCount := 0, readBackRun := 0, isolationCount := 0,
    clashCount := 0, lineFaultCount := 0, shortCount := 0, badCount := 0, resync := false,
    breakPending := false, breakDriving := none, breakUntil := 0, drive := [], driveFrom := 0,
    sampled := Contributions.clear, decoder := .idle, received := none, mismatch := 0, queue := [],
    waitingHalt := none, send := none, sentInSlot := false }

/-- SPU after a cold reset (R89, R180, R186, R189). -/
def Spu.cold : Spu :=
  { cue := 0, showState := .preshow, suspect := true, late := false, launchPending := false,
    lastTransition := none, proposal := none, observed := none, armed := none,
    awaitingCall := false, callWindow := none, dissent := false, ownStop := false,
    stopPosted := false, origin := [], snapshot := none, resumeWindow := none,
    awaitingResume := false, restart := none, refWait := 0, restartRecall := false }

/-- 16 slots, every entry none (R95). -/
def blankSlots : List (Option Nat) := List.replicate Config.slots none

/-- A port after a cold reset (R113). -/
def PortRec.cold : PortRec :=
  { state := .idle, list := [], buffer := .empty, slots := blankSlots, sendEnd := none, settle := none }

/-- PSQ after a cold reset (R113). -/
def Psq.cold : Psq :=
  { ports := { a := PortRec.cold, b := PortRec.cold }, scan := none, queued := none, target := none,
    hold := false, notReady := false }

/-- A lane after a cold reset (R140). -/
def LaneOut.cold : LaneOut := { voice := .accent, level := false, pulses := 0 }

/-- CKE after a cold reset (R140). The sub timer's interval, of which R140 says nothing, is 0 (log entry 35). -/
def Cke.cold : Cke :=
  { tempo := 1200, override := none, ramp := none, bar := 1, beat := 1, vamp := none,
    launch := false, armedTarget := none, countIn := none, compare := none, part := none,
    resume := none, beatTimer := none, beatPosted := false, downbeatPosted := false,
    dueSampled := false, shadow := .stopped, subOwed := 0, subInterval := 0, subNext := none,
    lanes := { l0 := LaneOut.cold, l1 := LaneOut.cold, l2 := LaneOut.cold, l3 := LaneOut.cold },
    tap := none }

/-- A monitor after a reset (R157). -/
def Monitor.cold : Monitor := { lock := .unlocked, misses := 0, expired := false, window := none }

/-- VSL after a cold reset (R157). -/
def Vsl.cold : Vsl :=
  { monitors := { front := Monitor.cold, lowlight := Monitor.cold, wide := Monitor.cold },
    table := [], override := none, desired := none, live := none, pendingSwitch := none,
    camfail := false, pitCamfail := false, composer := .idle, slate := none }

/-- The station right after power-on: no command waits, no image is held, every block has its cold-reset
values (R12, R46, R89, R113, R140, R157, R180, R194). -/
def State.reset : State :=
  { pending := [], now := 0, draws := 0, readings := [], image := none, con := Con.cold, le := Le.cold,
    spu := Spu.cold, psq := Psq.cold, cke := Cke.cold, vsl := Vsl.cold }

end Sys2Proof.Machine
end

