-- ==== Sys2Proof/Machine/Ops.lean ====
section
/-! DEFINITION. Machine/Ops.lean: the operations every block shares: reading the held image, a field per port,
input or lane, the instant, posting notices, the talk queue, saturating counts. -/

namespace Sys2Proof

/-! ## One value per port, input, lane -/

/-- The value of a port. -/
def Ports.get {α : Type} (x : Ports α) : Port → α
  | .a => x.a
  | .b => x.b

/-- The ports with one value replaced. -/
def Ports.set {α : Type} (x : Ports α) (p : Port) (v : α) : Ports α :=
  match p with
  | .a => { x with a := v }
  | .b => { x with b := v }

/-- The value of a sync input. -/
def Inputs.get {α : Type} (x : Inputs α) : Source → α
  | .front => x.front
  | .lowlight => x.lowlight
  | .wide => x.wide

/-- The inputs with one value replaced. -/
def Inputs.set {α : Type} (x : Inputs α) (i : Source) (v : α) : Inputs α :=
  match i with
  | .front => { x with front := v }
  | .lowlight => { x with lowlight := v }
  | .wide => { x with wide := v }

/-- A lane-wise function of three lane-wise values. -/
def Lanes.zip3With {α β γ δ : Type} (f : α → β → γ → δ) (x : Lanes α) (y : Lanes β) (z : Lanes γ) :
    Lanes δ :=
  { l0 := f x.l0 y.l0 z.l0, l1 := f x.l1 y.l1 z.l1, l2 := f x.l2 y.l2 z.l2, l3 := f x.l3 y.l3 z.l3 }

/-! ## Reading the held image -/

/-- One bit time in nanoseconds (R19). -/
def Image.bitTime (img : Image) : Nat := 1000000000 / img.lineRate

/-- One character time (R20). -/
def Image.charTime (img : Image) : Nat := Config.charBits * img.bitTime

/-- The round period P (R2, R25). -/
def Image.roundTime (img : Image) : Nat := img.period * img.charTime

/-- One frame window (R8). -/
def Image.frameWindow (img : Image) : Nat := img.frameInterval * Config.frameUnitNs

/-- The cue count (R2). -/
def Image.cueCount (img : Image) : Nat := img.cues.length

/-- The click part of a cue; none for a FREE cue (R3). -/
def Image.clickOf (img : Image) (c : Nat) : Option ClickPart :=
  match img.cues[c]? with
  | some r => r.click
  | none => none

/-- A FREE cue (R3). -/
def Image.isFree (img : Image) (c : Nat) : Bool := (img.clickOf c).isNone

/-- The start bar of a cue (R3). -/
def Image.startBar (img : Image) (c : Nat) : Nat :=
  match img.cues[c]? with
  | some r => r.startBar
  | none => 1

/-- The last bar of a cue, 0 before its first where it has no bars (R4). -/
def Image.endBar (img : Image) (c : Nat) : Nat :=
  match img.cues[c + 1]? with
  | some r => r.startBar - 1
  | none => Config.lastBar

/-- A bar lies within the bars of a cue (R4). -/
def Image.inBars (img : Image) (c bar : Nat) : Bool :=
  decide (img.startBar c ≤ bar ∧ bar ≤ img.endBar c)

/-- The auto-GO point of a cue (R6). -/
def Image.autoGoOf (img : Image) (c : Nat) : Option AutoGo :=
  match img.cues[c]? with
  | some r => r.autoGo
  | none => none

/-- The RESUME-SAFE flag of a cue (R3). -/
def Image.resumeSafe (img : Image) (c : Nat) : Bool :=
  match img.cues[c]? with
  | some r => r.resumeSafe
  | none => false

/-- The per-cue entry of a cue at this station (R10). -/
def Image.entryOf (img : Image) (c : Nat) : Option CueEntry :=
  img.entries.find? (fun e => e.cue == c)

/-- The pool indexes of a cue's patch part, in pool order; empty where it has none or counts 0 (R10). -/
def Image.patchOf (img : Image) (c : Nat) : List Nat :=
  match img.entryOf c with
  | some e =>
    match e.patch with
    | some p => (List.range p.count).map (fun k => p.first + k)
    | none => []
  | none => []

/-- The video part of a cue; absent counts as KEEP (R142). -/
def Image.videoOf (img : Image) (c : Nat) : VideoPart :=
  match img.entryOf c with
  | some e => e.video.getD .keep
  | none => .keep

/-- The label of a cue as four characters, left-aligned and filled with spaces (R63). -/
def Image.labelOf (img : Image) (c : Nat) : List Byte :=
  match img.cues[c]? with
  | some r => (r.label ++ List.replicate 4 (32 : Byte)).take 4
  | none => List.replicate 4 (32 : Byte)

/-- A station is in the caller set (R2). -/
def Image.isCallerStation (img : Image) (k : Nat) : Bool := img.callers.getLsbD k

/-- A station is in the tempo ranking (R2). -/
def Image.isRanked (img : Image) (k : Nat) : Bool := img.ranking.contains k

/-- The stations of a set in ascending number (R31). -/
def stationsOf (m : StationSet) : List Nat := (List.range Config.stations).filter (fun k => m.getLsbD k)

/-- The set of one station. -/
def stationSet (k : Nat) : StationSet := BitVec.ofNat Config.stations (2 ^ k)

/-- R31: the owners of the three talk slots of a clean round with count c: slot k belongs to entry
(3c + k) modulo n of the present stations; none when no station is present. -/
def slotOwners (m : StationSet) (c : Nat) : List Nat :=
  match stationsOf m with
  | [] => []
  | l => (List.range 3).map (fun k => l.getD ((3 * c + k) % l.length) 0)

/-- R60: the reference station and beat source: the first ranked station present, else the
lowest-numbered present station, else none. -/
def Image.reference (img : Image) (m : StationSet) : Option Nat :=
  match img.ranking.find? (fun k => m.getLsbD k) with
  | some k => some k
  | none => (stationsOf m).head?

/-- R91, R96: the nanoseconds a port takes for the bytes of a pool action, 10 bit times each at the port's
rate, back to back. -/
def Image.sendTime (img : Image) (p : Port) (index : Nat) : Nat :=
  match img.pool[index]? with
  | some x => x.bytes.length * 10 * 1000000000 / img.portRates.get p
  | none => 0

/-- R141: VSL is in service from image accepted at a station with the VIDEO role. -/
def Image.inService (img : Image) : Bool := img.roles.video

/-- Ticks per beat of a tempo (R116). -/
def ticksPerBeat (tempo : Nat) : Nat := 6000000 / tempo

/-- One beat of a tempo in nanoseconds (R116). -/
def beatNs (tempo : Nat) : Nat := ticksPerBeat tempo * Config.tickNs

namespace Machine

/-- A count reported in one byte, one higher, saturating (R33, R43, R55). -/
def bump (n : Nat) : Nat := min (n + 1) Config.countMax

/-! ## Updating one block -/

/-- CON changed. -/
def State.onCon (f : Con → Con) (s : State) : State := { s with con := f s.con }

/-- LE changed. -/
def State.onLe (f : Le → Le) (s : State) : State := { s with le := f s.le }

/-- SPU changed. -/
def State.onSpu (f : Spu → Spu) (s : State) : State := { s with spu := f s.spu }

/-- PSQ changed. -/
def State.onPsq (f : Psq → Psq) (s : State) : State := { s with psq := f s.psq }

/-- CKE changed. -/
def State.onCke (f : Cke → Cke) (s : State) : State := { s with cke := f s.cke }

/-- VSL changed. -/
def State.onVsl (f : Vsl → Vsl) (s : State) : State := { s with vsl := f s.vsl }

/-- The instant of the event taken: the clock never runs back (log entry 1). -/
def State.reach (t : Nat) (s : State) : State := { s with now := max s.now t }

/-! ## Notices (R193) -/

/-- A discard marks a STATUS frame under way (R194). -/
def Frame.discard : Frame → Frame
  | .status o _ => .status o true
  | f => f

/-- R193: a record joins the back of the queue, or is discarded and sets the overflow flag when the queue
holds 32. -/
def Con.append (c : Con) (n : Notice) : Con :=
  if c.notices.length < Config.noticeRoom then { c with notices := c.notices ++ [n] }
  else { c with overflow := true, frame := c.frame.discard }

/-- How many of the postings of this step stand after the last one of the same origin. -/
def foreignTail (o : Origin) (xs : List (Origin × Notice)) : Nat :=
  (xs.reverse.takeWhile (fun x => x.1 != o)).length

/-- R193: a posting of the current step. Postings of one origin keep their order; among the postings of
other origins its place is a free value (log entry 8). -/
def State.postNotice (o : Origin) (n : Notice) (s : State) : State :=
  let xs := s.con.together
  let k := foreignTail o xs
  let place := xs.length - (if k = 0 then 0 else Config.postingPlace s.draws % (k + 1))
  { s with
    draws := if k = 0 then s.draws else s.draws + 1
    con := { s.con with together := xs.take place ++ [(o, n)] ++ xs.drop place } }

/-- R193: a posting with the round count and the current cue index as they stand. -/
def State.post (o : Origin) (kind : NoticeKind) (station d1 d2 : Nat) (s : State) : State :=
  s.postNotice o
    { kind := kind, round := s.le.roundCount, cue := s.spu.cue, station := station,
      detail1 := d1, detail2 := d2 }

/-- R193: the postings of the step reach the queue one after the other. -/
def Con.takePostings (c : Con) : Con :=
  let d := c.together.foldl (fun c x => c.append x.2) c
  { c with notices := d.notices, overflow := d.overflow, frame := d.frame, together := [] }

/-- The postings of the step reach the queue (R193). -/
def State.flush (s : State) : State := s.onCon Con.takePostings

/-! ## The talk queue (R56 to R58) -/

/-- The kind of a message. -/
def Message.kind : Message → MessageKind
  | .tally _ => .tally
  | .call _ => .call
  | .tempo _ => .tempo
  | .halt _ => .halt
  | .resume _ => .resume
  | .camera _ => .camera

/-- A fresh queue entry. -/
def Entry.fresh (m : Message) : Entry := { message := m, inFlight := false, renewed := false }

/-- The queue holds a message of a kind. -/
def Le.holds (l : Le) (k : MessageKind) : Bool := l.queue.any (fun e => e.message.kind == k)

/-- An entry is in flight. -/
def Le.entryInFlight (l : Le) : Bool := l.queue.any (fun e => e.inFlight)

/-- R57: a HALT submission: to the front; the waiting HALT while another entry is in flight; dropped when
one is queued or waits. Always accepted. -/
def Le.submitHalt (f : HaltFields) (l : Le) : Le :=
  if l.holds .halt || l.waitingHalt.isSome then l
  else if l.entryInFlight then { l with waitingHalt := some f }
  else { l with queue := Entry.fresh (.halt f) :: l.queue }

/-- R57: a CALL, TEMPO or CAMERA submission: to the back, or in place of the one of its kind, marked
renewed when that one is in flight. Always accepted. -/
def Le.submitReplacing (m : Message) (l : Le) : Le :=
  if l.holds m.kind then
    { l with
      queue := l.queue.map (fun e =>
        if e.message.kind == m.kind then
          { message := m, inFlight := e.inFlight, renewed := e.renewed || e.inFlight }
        else e) }
  else { l with queue := l.queue ++ [Entry.fresh m] }

/-- R57: a RESUME with fields different from those of a queued RESUME is refused. -/
def Le.refusesResume (f : ResumeFields) (l : Le) : Bool :=
  l.queue.any (fun e => e.message.kind == .resume && e.message != .resume f)

/-- R57: a RESUME submission that is accepted: to the back, or unchanged when equal to the queued one. -/
def Le.submitResume (f : ResumeFields) (l : Le) : Le :=
  if l.holds .resume then l else { l with queue := l.queue ++ [Entry.fresh (.resume f)] }

/-- R58: the send's end settles the entry in flight, then the waiting HALT goes to the front. LE releases the
line but for a break it has begun to drive (R35). -/
def Le.settleSend (complete : Bool) (l : Le) : Le :=
  let kept := l.queue.filterMap (fun e =>
    if e.inFlight && complete && !e.renewed then none
    else if e.inFlight then some { e with inFlight := false, renewed := false }
    else some e)
  { l with
    queue := (match l.waitingHalt with
      | some h => Entry.fresh (.halt h) :: kept
      | none => kept)
    waitingHalt := none
    send := none
    drive := if l.breakDriving.isSome then l.drive else [] }

/-! ## Reading the station -/

/-- The station's own number in notices where no image is held (R15, R64: 255). -/
def State.ownNumber (s : State) : Nat :=
  match s.image with
  | some img => img.station
  | none => 255

/-- The station is beat source as LE last handed it (R60, R118). -/
def State.isSource (img : Image) (s : State) : Bool := s.le.beatSource == some img.station

/-- Every event of a block other than CON's loader needs a held image (R1, R12): without one nothing
takes place (log entry 3). -/
def withImage (s : State) (f : Image → State) : Host.Outcome State Fault Refusal :=
  match s.image with
  | some img => .next (f img)
  | none => .next s

/-! ## Presses (R195) -/

/-- The filtered level of a line. -/
def ButtonLines.get (x : ButtonLines) : Button → Bool
  | .stop => x.stop
  | .release => x.release
  | .go => x.go
  | .tap => x.tap

/-- The levels with one line asserted. -/
def ButtonLines.assert (x : ButtonLines) : Button → ButtonLines
  | .stop => { x with stop := true }
  | .release => { x with release := true }
  | .go => { x with go := true }
  | .tap => { x with tap := true }

/-- R195: a press is a filtered change from deasserted to asserted: on a line whose level has stood asserted
since the press before, holding it gives none. released: the level was deasserted since. From image accepted
CON hands the press on; before, it is discarded (R17). -/
def withPress (b : Button) (released : Bool) (s : State) (f : Image → State → State) :
    Host.Outcome State Fault Refusal :=
  if s.con.buttons.get b && !released then .next s
  else
    let s1 := s.onCon (fun c => { c with buttons := c.buttons.assert b })
    withImage s1 (fun img => f img s1)

end Machine

end Sys2Proof
end

