-- ==== Sys2Proof/Machine/Operands.lean ====
section
/-! DEFINITION. Machine/Operands.lean: what the commands carry: line characters (R20 to R22), messages and their
bytes (R48 to R53, R62), serial bytes of the ports and the caption output (R91). -/

namespace Sys2Proof.Machine

/-! ## Line characters (R20 to R22, R62) -/

/-- The four kinds of character (R20). -/
inductive CharKind where
  | mark | head | body | vote
  deriving DecidableEq, Repr

/-- The errors of a received character (R22). -/
inductive CharError where
  | breakSeen | framing | parity
  deriving DecidableEq, Repr

/-- A received character (R21). -/
structure Character where
  kind : CharKind
  data : Byte
  error : Option CharError
  deriving DecidableEq, Repr

/-- K1 and K0 as a number, K1 in bit 0 and K0 in bit 1: their order on the line (R20, R62). -/
def CharKind.bits : CharKind → Nat
  | .mark => 3
  | .head => 1
  | .body => 2
  | .vote => 0

/-- The kind of K1 and K0. -/
def CharKind.ofBits (k1 k0 : Bool) : CharKind :=
  match k1, k0 with
  | true, true => .mark
  | true, false => .head
  | false, true => .body
  | false, false => .vote

/-- How many of the bits from to from + n - 1 are dominant. -/
def dominantBits (w : Samples) (start n : Nat) : Nat :=
  ((List.range n).filter (fun k => w.getLsbD (start + k))).length

/-- R20: the bit times of a character before its parity bit. -/
def charStem (k : CharKind) (data : Byte) : Samples :=
  BitVec.ofNat 13 (1 + 2 * k.bits + 8 * data.toNat)

/-- R20: the 13 bit times of a character as driven: start dominant, K1, K0, D0 to D7, parity (odd over K1
to the parity bit in HEAD and BODY, recessive in MARK and VOTE), stop recessive. -/
def charBitsOf (k : CharKind) (data : Byte) : Samples :=
  match k with
  | .head | .body =>
    if dominantBits (charStem k data) 1 10 % 2 = 0 then
      charStem k data ||| BitVec.ofNat 13 (2 ^ 11)
    else charStem k data
  | .mark | .vote => charStem k data

/-- The line dominant for a whole character time (R35). -/
def breakBits : Samples := BitVec.allOnes 13

/-- R21, R22: the character of 13 sampled bit times; none when the start bit samples recessive. -/
def receiveChar (w : Samples) : Option Character :=
  if w.getLsbD 0 then
    let kind := CharKind.ofBits (w.getLsbD 1) (w.getLsbD 2)
    let error : Option CharError :=
      if w = breakBits then some .breakSeen
      else if w.getLsbD 12 then some .framing
      else if (kind = .head ∨ kind = .body) ∧ dominantBits w 1 11 % 2 = 0 then some .parity
      else none
    some { kind := kind, data := BitVec.ofNat 8 (w.toNat / 8), error := error }
  else none

/-- R22: received good with this kind. -/
def Character.isGood (c : Character) (k : CharKind) : Bool := c.kind == k && c.error == none

/-- R22: after this character the receiver resynchronises. -/
def Character.losesSync (c : Character) : Bool :=
  c.error == some .breakSeen || c.error == some .framing

/-- R21, R22: the character taken at a position: none while the receiver resynchronises. -/
def takeChar (resync : Bool) (w : Samples) : Option Character :=
  if resync then none else receiveChar w

/-- R22: the receiver resynchronises after the character taken. -/
def resyncAfter (resync : Bool) (c : Option Character) : Bool :=
  resync || (match c with
    | some ch => ch.losesSync
    | none => false)

/-- One bit sampled while resynchronising: the run of recessive bits, and whether it has reached 13. -/
def resyncBit (x : Nat × Bool) (dominant : Bool) : Nat × Bool :=
  let run := if dominant then 0 else x.1 + 1
  (run, x.2 || decide (13 ≤ run))

/-- The bits of one position in the order of the line. -/
def lineBits (w : Samples) : List Bool := (List.range 13).map (fun k => w.getLsbD k)

/-- R21, R22: the characters taken at consecutive positions. The second argument is the recessive run so
far while resynchronising. The answer holds the characters and whether the receiver still resynchronises. -/
def takeChars : Bool → Nat → List Samples → List (Option Character) × Bool
  | r, _, [] => ([], r)
  | true, run, w :: ws =>
    let x := (lineBits w).foldl resyncBit (run, false)
    let rest := takeChars (!x.2) x.1 ws
    (none :: rest.1, rest.2)
  | false, _, w :: ws =>
    let c := receiveChar w
    let rest := takeChars (resyncAfter false c) 0 ws
    (c :: rest.1, rest.2)

/-- R37: a driven dominant bit read back recessive. -/
def readBackFails (driven sampled : Samples) : Bool := driven &&& ~~~sampled != 0

/-! ## Message codes (R48, R62) -/

/-- The kind code of a HEAD (R48). -/
def MessageKind.code : MessageKind → Nat
  | .tally => 1
  | .call => 2
  | .tempo => 3
  | .halt => 4
  | .resume => 5
  | .camera => 6

/-- The kind of a code; 0 and 7 are none (R52). -/
def MessageKind.ofCode : Nat → Option MessageKind
  | 1 => some .tally
  | 2 => some .call
  | 3 => some .tempo
  | 4 => some .halt
  | 5 => some .resume
  | 6 => some .camera
  | _ => none

/-- How many bodies a kind has (R48). -/
def MessageKind.bodies : MessageKind → Nat
  | .tally => 9
  | .call => 5
  | .tempo => 3
  | .halt => 2
  | .resume => 6
  | .camera => 1

/-- Show state codes (R62). -/
def ShowState.code : ShowState → Nat
  | .preshow => 0
  | .run => 1
  | .stopped => 2
  | .standby => 3
  | .countin => 4

/-- The show state of a code; above 4 none (R53). -/
def ShowState.ofCode : Nat → Option ShowState
  | 0 => some .preshow
  | 1 => some .run
  | 2 => some .stopped
  | 3 => some .standby
  | 4 => some .countin
  | _ => none

/-- HALT reason codes (R62). -/
def StopReason.code : StopReason → Nat
  | .button => 0
  | .console => 1
  | .safety => 2
  | .video => 3

/-- The reason of a code; above 3 none (R53). -/
def StopReason.ofCode : Nat → Option StopReason
  | 0 => some .button
  | 1 => some .console
  | 2 => some .safety
  | 3 => some .video
  | _ => none

/-- Source codes (R62, R151, 10.5). -/
def sourceCode : Source → Nat
  | .front => 0
  | .lowlight => 1
  | .wide => 2

/-- CAMERA source codes (R62): 3 is FOLLOW-CUE; above 3 malformed (R53). -/
def cameraOfCode : Nat → Option (Option Source)
  | 0 => some (some .front)
  | 1 => some (some .lowlight)
  | 2 => some (some .wide)
  | 3 => some none
  | _ => none

/-- The code of a CAMERA source (R62). -/
def cameraCode : Option Source → Nat
  | some s => sourceCode s
  | none => 3

/-- A flag as a number. -/
def bit (b : Bool) : Nat := if b then 1 else 0

/-- Restore mask bits (R62): D0 TEMPO, D1 CAMERA, D2 VAMP. -/
def RestoreMask.code (m : RestoreMask) : Nat := bit m.tempo + 2 * bit m.camera + 4 * bit m.vamp

/-- The restore mask of a byte; any of D3 to D7 set is malformed (R53). -/
def RestoreMask.ofByte (b : Byte) : Option RestoreMask :=
  if b.toNat < 8 then
    some { tempo := b.getLsbD 0, camera := b.getLsbD 1, vamp := b.getLsbD 2 }
  else none

/-- A "when" byte: above 1 malformed (R53). -/
def whenOf (b : Byte) : Option Bool :=
  if b = 0 then some false else if b = 1 then some true else none

/-- The state byte of a TALLY (R62). -/
def TallyFields.stateByte (f : TallyFields) : Byte :=
  BitVec.ofNat 8 (f.showState.code + 8 * bit f.vampActive + 16 * bit f.late + 32 * bit f.suspect
    + 64 * bit f.camfail)

/-! ## Messages as bytes (R62) -/

/-- The body bytes of a message, B1 onward (R62). -/
def Message.body : Message → List Byte
  | .tally f =>
    [hiByte f.showId, loByte f.showId, hiByte f.cue, loByte f.cue, hiByte f.bar, loByte f.bar,
     loByte f.beat, loByte f.pass, f.stateByte]
  | .call f =>
    [hiByte f.base, loByte f.base, hiByte f.target, loByte f.target, loByte (bit f.downbeat)]
  | .tempo f => [hiByte f.tempo, loByte f.tempo, loByte (bit f.atOnce)]
  | .halt f => [loByte f.reason.code, f.detail]
  | .resume f =>
    [hiByte f.cue, loByte f.cue, hiByte f.bar, loByte f.bar, loByte f.countIn, loByte f.mask.code]
  | .camera s => [loByte (cameraCode s)]

/-- A message of this station as its characters carry it (R48). -/
def Message.raw (sender : Nat) (m : Message) : RawMessage :=
  { kind := m.kind, sender := sender, body := m.body }

/-- The characters of a message: a HEAD with kind code and sender, then the bodies (R48, R62). -/
def RawMessage.chars (r : RawMessage) : List Samples :=
  charBitsOf .head (BitVec.ofNat 8 (32 * r.kind.code + r.sender)) ::
    r.body.map (fun b => charBitsOf .body b)

/-- The TALLY fields of nine bodies; none when malformed (R53). -/
def parseTally (cues : Nat) : List Byte → Option TallyFields
  | [sh, sl, ch, cl, bh, bl, beat, pass, st] =>
    match ShowState.ofCode (st.toNat % 8) with
    | none => none
    | some show_ =>
      let f : TallyFields :=
        { showId := wordOf sh sl, cue := wordOf ch cl, bar := wordOf bh bl, beat := beat.toNat,
          pass := pass.toNat, showState := show_, vampActive := st.getLsbD 3, late := st.getLsbD 4,
          suspect := st.getLsbD 5, camfail := st.getLsbD 6 }
      if st.getLsbD 7 then none
      else if cues ≤ f.cue then none
      else if f.bar = 0 ∨ Config.lastBar < f.bar then none
      else if f.beat = 0 ∨ 16 < f.beat then none
      else if f.vampActive = decide (f.pass = 0) then none
      else some f
  | _ => none

/-- R53: the message of the bodies, or none when it is malformed. -/
def RawMessage.parse (cues : Nat) (r : RawMessage) : Option Message :=
  match r.kind with
  | .tally => (parseTally cues r.body).map Message.tally
  | .call =>
    match r.body with
    | [bh, bl, th, tl, w] =>
      (whenOf w).map (fun d =>
        Message.call { base := wordOf bh bl, target := wordOf th tl, downbeat := d })
    | _ => none
  | .tempo =>
    match r.body with
    | [th, tl, w] =>
      if wordOf th tl < 300 ∨ 3000 < wordOf th tl then none
      else (whenOf w).map (fun d => Message.tempo { tempo := wordOf th tl, atOnce := d })
    | _ => none
  | .halt =>
    match r.body with
    | [rs, d] => (StopReason.ofCode rs.toNat).map (fun x => Message.halt { reason := x, detail := d })
    | _ => none
  | .resume =>
    match r.body with
    | [ch, cl, bh, bl, n, m] =>
      if 4 < n.toNat then none
      else (RestoreMask.ofByte m).map (fun x =>
        Message.resume { cue := wordOf ch cl, bar := wordOf bh bl, countIn := n.toNat, mask := x })
    | _ => none
  | .camera =>
    match r.body with
    | [s] => (cameraOfCode s.toNat).map Message.camera
    | _ => none

/-! ## Serial outputs (R91, R153) -/

/-- R91: the 10 bit times of a byte on a patch port or the caption output: start low, D0 to D7, stop
high; true is the high level. -/
def serialFrame (b : Byte) : List Bool :=
  [false] ++ (List.range 8).map (fun k => b.getLsbD k) ++ [true]

/-- R91: the levels of bytes sent back to back. -/
def serialFrames (bs : List Byte) : List Bool := bs.flatMap serialFrame

/-! ## Notice records as bytes (R65) -/

/-- Kind codes of notices (R65). -/
def NoticeKind.code : NoticeKind → Nat
  | .restart => 1
  | .cue => 2
  | .cueLate => 3
  | .patchLate => 4
  | .callDropped => 5
  | .stop => 6
  | .standby => 7
  | .resume => 8
  | .resumeTimeout => 9
  | .camera => 10
  | .line => 11
  | .image => 12
  | .showMismatch => 13
  | .ignored => 14

/-- R65: the 7 bytes of a notice record. -/
def Notice.bytes (n : Notice) : List Byte :=
  [loByte n.kind.code, n.round, hiByte n.cue, loByte n.cue, loByte n.station, loByte n.detail1,
   loByte n.detail2]

end Sys2Proof.Machine
end

