-- ==== Sys2Proof/Machine/Flags.lean ====
section
/-! DEFINITION. Machine/Flags.lean: the flags and conditions computed from State: contributions and vote characters
(R27, R62), the status byte and STATUS flags (R64), readiness (R100), whether the click runs (R117),
what VSL shows (R141), the caption (R63, R152). -/

namespace Sys2Proof.Machine

/-! ## Vote field (R27, R28, R62) -/

/-- V0 of the contributions (R62); D7 is recessive. -/
def Contributions.byte (c : Contributions) : Byte :=
  BitVec.ofNat 8 (bit c.stop + 2 * bit c.notReady + 4 * bit c.dissent + 8 * bit c.beat
    + 16 * bit c.downbeat + 32 * bit c.camfail + 64 * bit c.attend)

/-- The contributions of V0 (R62). -/
def Contributions.ofByte (b : Byte) : Contributions :=
  { stop := b.getLsbD 0, notReady := b.getLsbD 1, dissent := b.getLsbD 2, beat := b.getLsbD 3,
    downbeat := b.getLsbD 4, camfail := b.getLsbD 5, attend := b.getLsbD 6 }

/-- The contributions the blocks have posted (R27). -/
def State.contributions (s : State) : Contributions :=
  { stop := s.spu.stopPosted, notReady := s.psq.notReady, dissent := s.spu.dissent,
    beat := s.cke.beatPosted, downbeat := s.cke.downbeatPosted, camfail := s.vsl.camfail,
    attend := s.con.attendPosted }

/-- R27: the four vote characters a JOINED station drives: its contributions in V0 and its own presence
bit in V1 to V3. -/
def voteChars (c : Contributions) (station : Nat) : List Samples :=
  charBitsOf .vote c.byte ::
    (List.range 3).map (fun k =>
      charBitsOf .vote (BitVec.ofNat 8 ((stationSet station).toNat / 2 ^ (8 * k))))

/-- R28, R62: the presence map of V1 to V3. -/
def presenceMap (v1 v2 v3 : Byte) : StationSet :=
  BitVec.ofNat 24 (v1.toNat + 256 * v2.toNat + 65536 * v3.toNat)

/-! ## Console status (R64, R17) -/

/-- Loader state codes (R64). -/
def LoaderState.code : LoaderState → Nat
  | .loading => 0
  | .checking => 1
  | .accepted => 2
  | .failed => 3

/-- LE state codes (R64). -/
def LineState.code : LineState → Nat
  | .offline => 0
  | .listen => 1
  | .joined => 2
  | .isolated => 3

/-- R64, R17: the show state code; 0 while no show is held. -/
def State.shownState (s : State) : Nat :=
  if s.image.isSome then s.spu.showState.code else 0

/-- R64: the status byte as it stands: LE state, show state, queue not empty, overflow, own-stop. -/
def State.statusByte (s : State) : Byte :=
  BitVec.ofNat 8 (s.le.state.code + 4 * s.shownState + 32 * bit (!s.con.notices.isEmpty)
    + 64 * bit s.con.overflow + 128 * bit (s.image.isSome && s.spu.ownStop))

/-- A pending CALL is held. -/
def Spu.holdsCall (u : Spu) : Bool :=
  match u.proposal with
  | some (.call _) => true
  | _ => false

/-- A pending RESUME is held. -/
def Spu.holdsResume (u : Spu) : Bool :=
  match u.proposal with
  | some (.resume _) => true
  | _ => false

/-- R64, R17: the flags byte of STATUS; SPU's flags read clear while no show is held. -/
def State.flagsByte (s : State) : Byte :=
  let show_ := s.image.isSome
  BitVec.ofNat 8 (bit (show_ && s.spu.suspect) + 2 * bit (show_ && s.spu.late)
    + 4 * bit (show_ && s.spu.launchPending) + 8 * bit (show_ && s.spu.armed.isSome)
    + 16 * bit (show_ && s.spu.ownStop) + 32 * bit (show_ && s.spu.holdsCall)
    + 64 * bit (show_ && s.spu.holdsResume) + 128 * bit s.con.overflow)

/-- R64: the 9 bytes of the STATUS reply. -/
def State.statusReply (s : State) : List Byte :=
  [loByte s.con.loader.code, loByte s.le.state.code, loByte s.shownState, s.flagsByte,
   loByte s.le.clashCount, loByte s.le.lineFaultCount, loByte s.le.shortCount, loByte s.le.badCount,
   loByte s.ownNumber]

/-- The vamp pass, 0 while inactive (R115). -/
def Cke.pass (k : Cke) : Nat :=
  match k.vamp with
  | some v => v.pass
  | none => 0

/-- R129, R49: CKE's bar as it reads: in a FREE cue the cue's start bar. -/
def State.shownBar (img : Image) (s : State) : Nat :=
  if img.isFree s.spu.cue then img.startBar s.spu.cue else s.cke.bar

/-- R129, R49: CKE's beat as it reads: in a FREE cue 1. -/
def State.shownBeat (img : Image) (s : State) : Nat := if img.isFree s.spu.cue then 1 else s.cke.beat

/-- R64, R191: the 12 bytes of the POSITION reply. -/
def State.positionReply (img : Image) (s : State) : List Byte :=
  [hiByte s.spu.cue, loByte s.spu.cue] ++ img.labelOf s.spu.cue ++
    [hiByte (s.shownBar img), loByte (s.shownBar img), loByte (s.shownBeat img), loByte s.cke.pass,
     hiByte s.cke.tempo, loByte s.cke.tempo]

/-- R64, R190: the bytes a console frame shifts out. s: the station as chip select is asserted; args: the
argument bytes the command takes; u: the station after the command event. The status byte goes out during
the command byte, 0 during each argument byte, then the reply code and data. -/
def frameOut (s : State) (args : Nat) (u : State) : List Byte :=
  s.statusByte :: (List.replicate args 0 ++ u.con.reply)

/-- R64: byte k of a frame as shifted out; any byte after the reply reads 0. -/
def frameByte (s : State) (args : Nat) (u : State) (k : Nat) : Byte := (frameOut s args u).getD k 0

/-! ## Readiness (R100) -/

/-- R92: SENDING or SETTLING. -/
def PortState.busy : PortState → Bool
  | .sending | .settling => true
  | .idle | .held => false

/-- R105, R99: a buffer of this kind is accepted for a target of this kind: either kind for a CALL,
RECALL for a RESUME. -/
def Purpose.accepts : Purpose → BufferKind → Bool
  | .call, _ => true
  | .resume, .recall => true
  | .resume, .delta => false

/-- R100: a port is ready for the pending target. -/
def PortRec.ready (r : PortRec) (t : PendingTarget) : Bool :=
  (match r.buffer with
    | .staged target kind _ => target == t.target && t.kind.accepts kind
    | _ => false) && !r.state.busy

/-- R100: PSQ holds a pending target and at least one port is not ready for it. -/
def Psq.unready (q : Psq) : Bool :=
  match q.target with
  | some t => !(q.ports.a.ready t && q.ports.b.ready t)
  | none => false

/-- R100: the NOTREADY contribution follows its condition. -/
def Psq.judge (q : Psq) : Psq := { q with notReady := q.unready }

/-! ## The click (R117) -/

/-- R117: the click runs while the show state is RUN or COUNTIN and the current cue has a click part. -/
def State.clickRuns (s : State) : Bool :=
  (s.spu.showState == .run || s.spu.showState == .countin) && s.cke.part.isSome

/-! ## Video (R141, R63) -/

/-- 10.5: the select lines: 0 FRONT, 1 LOWLIGHT, 2 WIDE, 3 SLATE. -/
def Vsl.select (v : Vsl) : Nat :=
  match v.live with
  | some x => sourceCode x
  | none => 3

/-- A decimal digit as a character code. -/
def digit (n : Nat) : Byte := loByte (48 + n % 10)

/-- R63: the state word of a caption, the first whose condition holds. -/
def stateWord (showState : ShowState) (late vamp free : Bool) : List Byte :=
  match showState with
  | .stopped => [83, 84, 80]
  | .standby => [83, 66, 89]
  | .countin => [67, 78, 84]
  | .preshow =>
    if late then [76, 65, 84] else if vamp then [86, 77, 80] else [80, 82, 69]
  | .run =>
    if late then [76, 65, 84] else if vamp then [86, 77, 80]
    else if free then [70, 82, 69] else [82, 85, 78]

/-- R63: the 16 bytes of a caption record. -/
def captionRecord (label : List Byte) (bar beat : Nat) (word : List Byte) : List Byte :=
  label ++ [32] ++ [digit (bar / 1000), digit (bar / 100), digit (bar / 10), digit bar] ++ [46] ++
    [digit (beat / 10), digit beat] ++ [32] ++ word

/-- R152: the snapshot a caption shows: in STOPPED or STANDBY, the one held. -/
def Spu.shownSnapshot (u : Spu) : Option Snapshot :=
  match u.showState with
  | .stopped | .standby => u.snapshot
  | _ => none

/-- R152: the caption composed from the show state as it stands. -/
def State.caption (img : Image) (s : State) : List Byte :=
  let word := stateWord s.spu.showState s.spu.late s.cke.vamp.isSome (img.isFree s.spu.cue)
  match s.spu.shownSnapshot with
  | some x => captionRecord (img.labelOf x.cue) x.bar x.beat word
  | none => captionRecord (img.labelOf s.spu.cue) (s.shownBar img) (s.shownBeat img) word

/-! ## Serial outputs over time (R91, R96, R153) -/

/-- R91: the level of a serial output at an instant: bytes are sent back to back at a rate from an instant on;
before and after them the output rests at the high level. -/
def serialLevel (bytes : List Byte) (rate start now : Nat) : Bool :=
  if now < start then true
  else (serialFrames bytes).getD ((now - start) * rate / 1000000000) true

/-- R153, R141: the bytes a composer has left at an instant, 1 to 16 while sending, counting the one on the
wire. -/
def Composer.bytesLeft (c : Composer) (now : Nat) : Nat :=
  match c with
  | .sending _ ends => ((ends - now) * Config.captionRate + 9999999999) / 10000000000
  | .idle => 0

/-- R153: the level of the caption output at an instant. -/
def Vsl.captionLevel (v : Vsl) (now : Nat) : Bool :=
  match v.composer with
  | .sending record ends => serialLevel record Config.captionRate (ends - Config.captionNs) now
  | .idle => true

/-- R91, R96: the bytes a port sends for its head action while SENDING; none otherwise. -/
def PortRec.sendingBytes (img : Image) (r : PortRec) : List Byte :=
  match r.state, r.list with
  | .sending, i :: _ =>
    match img.pool[i]? with
    | some x => x.bytes
    | none => []
  | _, _ => []

/-- R91, R96: the level of a port's output at an instant: the head action's bytes at the port's rate while
SENDING, the high level otherwise. -/
def PortRec.level (img : Image) (p : Port) (r : PortRec) (now : Nat) : Bool :=
  match r.sendEnd, r.list with
  | some ends, i :: _ =>
    serialLevel (r.sendingBytes img) (img.portRates.get p) (ends - img.sendTime p i) now
  | _, _ => true

/-! ## The line over time (R19, R20) -/

/-- R19: the character or break LE drives at an instant; none while it releases the line. -/
def Le.driving (img : Image) (l : Le) (now : Nat) : Option Samples :=
  if now < l.driveFrom then none else l.drive[(now - l.driveFrom) / img.charTime]?

end Sys2Proof.Machine
end

