-- ==== Sys2Proof/Machine/Click.lean ====
section
/-! DEFINITION. Machine/Click.lean: the Click Engine (Chapter 6): beat timing, counting, lanes, cue starts, ramps,
vamps, the compare unit, stops, resumes and adoption, and the meanings of BEAT_TIMER_EXPIRY,
SHADOW_TIMER_EXPIRY, SUB_TIMER_EXPIRY and TAP_PRESS. -/

namespace Sys2Proof.Machine

/-! ## Lanes (R125 to R127) -/

/-- R127: what a lane does at a click it is offered: sounds only when enabled; a pulse lane presents the
voice and pulses, a SUB only with subdivisions on; a toggle lane inverts at every click but SUB. -/
def laneSound (voice : Voice) (mode : LaneMode) (enabled : Bool) (l : LaneOut) : LaneOut :=
  if enabled then
    if mode.toggle then (if voice = .sub then l else { l with level := !l.level })
    else if voice = .sub && !mode.subdivisions then l
    else { l with voice := voice, pulses := l.pulses + 1 }
  else l

/-- R127: a toggle lane outside a set of lanes is driven low. -/
def laneLower (mode : LaneMode) (keep : Bool) (l : LaneOut) : LaneOut :=
  if mode.toggle && !keep then { l with level := false } else l

/-- No lane. -/
def noLanes : Lanes Bool := { l0 := false, l1 := false, l2 := false, l3 := false }

/-- R127: the toggle lanes not in the set are driven low. -/
def Cke.lowerLanes (k : Cke) (img : Image) (keep : Lanes Bool) : Cke :=
  { k with lanes := Lanes.zip3With laneLower img.lanes keep k.lanes }

/-- R125, R127: a click on the lanes of the current click part. -/
def Cke.sound (k : Cke) (img : Image) (voice : Voice) : Cke :=
  match k.part with
  | some part => { k with lanes := Lanes.zip3With (laneSound voice) img.lanes part.lanes k.lanes }
  | none => k

/-- R126: SUB clicks still owed are dropped. -/
def Cke.dropSubs (k : Cke) : Cke := { k with subOwed := 0, subNext := none }

/-! ## Beat due (R119) -/

/-- BEAT and DOWNBEAT withdrawn. -/
def Cke.clearDue (k : Cke) : Cke :=
  { k with beatPosted := false, downbeatPosted := false, dueSampled := false }

/-- R119: withdrawn at the vote field complete of the round whose vote field start sampled them. -/
def Cke.withdrawSampled (k : Cke) : Cke := if k.dueSampled then k.clearDue else k

/-- R117, R118: a beat due that has not been sampled is withdrawn. -/
def Cke.withdrawUnsampled (k : Cke) : Cke := if k.dueSampled then k else k.clearDue

/-- The meter of the current click part. -/
def Cke.meter (k : Cke) : Nat :=
  match k.part with
  | some part => part.meter
  | none => 1

/-- R118, R119: a beat timer expiry at instant e: the due beat is 1 when the launch marker is set or the
counted beat is at or above the meter; the timer reloads with the tempo in force. -/
def Cke.beatExpiry (k : Cke) (e : Nat) : Cke :=
  { k with
    beatPosted := true
    downbeatPosted := k.launch || decide (k.meter ≤ k.beat)
    dueSampled := false
    beatTimer := some { pending := e + beatNs k.tempo, last := some e, reload := k.tempo } }

/-- R121: the beat timer starts with the shadow timer's phase, or expires at once. -/
def Cke.startTimer (k : Cke) (now : Nat) : Cke :=
  match k.shadow with
  | .running p => { k with beatTimer := some { pending := p, last := none, reload := k.tempo } }
  | .lapsed | .stopped => k.beatExpiry now

/-- R117, R118, R121: the timers follow whether the click runs and whether the station is beat source. -/
def Cke.settle (k : Cke) (runs source : Bool) (now : Nat) : Cke :=
  if runs then
    if source then
      match k.beatTimer with
      | some _ => k
      | none => k.startTimer now
    else { k.withdrawUnsampled with beatTimer := none }
  else { k.withdrawUnsampled.dropSubs with beatTimer := none, shadow := .stopped }

/-- The click timers of the station settle at the end of an event. -/
def State.settleClick (img : Image) (s : State) : State :=
  s.onCke (fun k => k.settle s.clickRuns (s.isSource img) s.now)

/-! ## Cue starts (R128, R129, R136) -/

/-- R136: the compare point of a cue. -/
def compareOf (img : Image) (cue : Nat) : Option ComparePoint :=
  (img.autoGoOf cue).map (fun g => { bar := g.bar, beat := g.beat, cue := cue })

/-- R129: a cue start into a FREE cue. -/
def Cke.freeStart (k : Cke) (img : Image) (cue : Nat) : Cke :=
  { k.dropSubs.lowerLanes img noLanes with
    bar := img.startBar cue, beat := 1, launch := false, vamp := none, ramp := none,
    compare := none, part := none, resume := none }

/-- R128: the ramp of a click part from its beginning. -/
def rampOf (part : ClickPart) : Option RampState :=
  part.ramp.map (fun r => { start := part.tempo, target := r.target, length := r.length, step := 0 })

/-- R128: a cue start into a click cue. -/
def Cke.clickStart (k : Cke) (img : Image) (cue : Nat) (part : ClickPart) : Cke :=
  { k.dropSubs.lowerLanes img part.lanes with
    part := some part, override := none, tempo := part.tempo, ramp := rampOf part, vamp := none,
    compare := compareOf img cue, resume := none }

/-- R128, R129: a cue start. With launch it places the start bar and beat 1 and sets the launch marker. -/
def Cke.cueStart (k : Cke) (img : Image) (cue : Nat) (launch : Bool) : Cke :=
  match img.clickOf cue with
  | some part =>
    let k1 := k.clickStart img cue part
    if launch then { k1 with bar := img.startBar cue, beat := 1, launch := true } else k1
  | none => k.freeStart img cue

/-! ## Vamps (R134, R135, R138) -/

/-- The last bar of a vamp (R5). -/
def vampLast (v : VampPart) : Nat := v.start + v.length - 1

/-- A bar lies within a vamp's bars. -/
def vampCovers (v : VampPart) (bar : Nat) : Bool := decide (v.start ≤ bar ∧ bar ≤ vampLast v)

/-- The vamp of the current click part. -/
def Cke.vampPart (k : Cke) : Option VampPart :=
  match k.part with
  | some part => part.vamp
  | none => none

/-- R134: the vamp entry test. -/
def Cke.entryTest (k : Cke) : Cke :=
  match k.vampPart with
  | some v =>
    if k.vamp = none ∧ k.bar = v.start then
      { k with vamp := some { pass := 1, left := if v.repeats = 0 then none else some v.repeats } }
    else k
  | none => k

/-- R138, R139: a vamp brought back at a pass: passes left = repeat count - pass + 1, at least 1. -/
def vampAt (v : VampPart) (pass : Nat) : VampState :=
  { pass := pass, left := if v.repeats = 0 then none else some (max 1 (v.repeats + 1 - pass)) }

/-- R138: the vamp restore at the restart downbeat. -/
def Cke.vampRestore (k : Cke) (pass : Option Nat) : Cke :=
  match k.vampPart with
  | some v => if vampCovers v k.bar then { k with vamp := some (vampAt v (pass.getD 1)) } else k
  | none => k

/-- R124: the vamp is active and the bar is its last. -/
def Cke.atPassEnd (k : Cke) : Bool :=
  match k.vamp, k.vampPart with
  | some _, some v => k.bar == vampLast v
  | _, _ => false

/-- R135: the end of a pass. -/
def Cke.endOfPass (k : Cke) : Cke :=
  match k.vamp, k.vampPart with
  | some x, some v =>
    match x.left with
    | none =>
      { k with bar := v.start, beat := 1, vamp := some { pass := min 255 (x.pass + 1), left := none } }
    | some n =>
      if 1 < n then
        { k with bar := v.start, beat := 1, vamp := some { pass := x.pass + 1, left := some (n - 1) } }
      else { k with bar := min Config.lastBar (v.start + v.length), beat := 1, vamp := none }
  | _, _ => k

/-! ## Counting (R122 to R126, R132, R133, R136, R138) -/

/-- A counted beat placed: the record after bar, beat, vamp, armed target and count-in are updated; whether
the beat begins the cue (no ramp step, R132); whether it is taken as a RUN beat; the reports it makes. -/
structure Placed where
  cke : Cke
  begins : Bool
  asRun : Bool
  launch : Bool
  armed : Bool
  countIn : Bool
  deriving DecidableEq, Repr

/-- A beat that only moves the position. -/
def Placed.plain (k : Cke) (run : Bool) : Placed :=
  { cke := k, begins := false, asRun := run, launch := false, armed := false, countIn := false }

/-- R123: the launch beat clears the marker and makes the launch report; in COUNTIN count-in bar 1. -/
def Cke.launched (k : Cke) (run : Bool) : Cke :=
  if run then { k with launch := false, resume := none }
  else { k with launch := false, countIn := k.countIn.map (fun c => { c with bar := 1 }) }

/-- R123, R138: the launch beat. In RUN at a resume it is the restart downbeat and makes the vamp restore. -/
def Cke.launchBeat (k : Cke) (run : Bool) : Cke :=
  match run, k.resume with
  | true, some pass => (k.launched run).vampRestore pass
  | _, _ => k.launched run

/-- R123: a counted BEAT without DOWNBEAT. -/
def Cke.placeBeat (k : Cke) (run : Bool) : Placed :=
  if k.launch then { Placed.plain (k.launchBeat run) run with begins := true, launch := true }
  else Placed.plain { k with beat := if k.meter < k.beat + 1 then 1 else k.beat + 1 } run

/-- R133: the downbeat qualifies for the armed target: in RUN, with the vamp inactive or at its last bar. -/
def Cke.qualifies (k : Cke) (run : Bool) : Bool := run && (k.vamp.isNone || k.atPassEnd)

/-- R133: the armed downbeat: a cue start of the armed target without launch, at its start bar, beat 1. -/
def Cke.armedDownbeat (k : Cke) (img : Image) (target : Nat) : Cke :=
  { k.cueStart img target false with
    bar := img.startBar target, beat := 1, launch := false, armedTarget := none }.entryTest

/-- R124: the ordinary row: bar + 1, beat 1, then the vamp entry test in RUN. -/
def Cke.nextBar (k : Cke) (run : Bool) : Cke :=
  let k1 := { k with bar := min Config.lastBar (k.bar + 1), beat := 1 }
  if run then k1.entryTest else k1

/-- R138: the restart downbeat after a count-in. -/
def Cke.restartDownbeat (k : Cke) : Cke :=
  let k1 := { k with beat := 1, countIn := none, resume := none }
  k1.vampRestore (k.resume.getD none)

/-- R124, R138: the launch beat as a downbeat: in RUN the vamp entry test, or the vamp restore at a resume. -/
def Cke.launchDownbeat (k : Cke) (run : Bool) : Cke :=
  if run && k.resume.isNone then (k.launchBeat run).entryTest else k.launchBeat run

/-- R124: a downbeat with no armed target that takes it. -/
def Cke.placeUnarmed (k : Cke) (run : Bool) : Placed :=
  if k.launch then { Placed.plain (k.launchDownbeat run) run with begins := true, launch := true }
  else
    match run, k.countIn with
    | false, some c =>
      if c.bar < c.bars then
        Placed.plain { k with countIn := some { c with bar := c.bar + 1 }, beat := 1 } false
      else { Placed.plain k.restartDownbeat true with begins := true, countIn := true }
    | _, _ => Placed.plain (if k.atPassEnd then k.endOfPass else k.nextBar run) run

/-- R124: a counted BEAT with DOWNBEAT. -/
def Cke.placeDownbeat (k : Cke) (img : Image) (run : Bool) : Placed :=
  match k.armedTarget with
  | some target =>
    if k.qualifies run then
      { Placed.plain (k.armedDownbeat img target) true with begins := true, armed := true }
    else k.placeUnarmed run
  | none => k.placeUnarmed run

/-- R132: the value of a ramp at a step, truncated toward the start tempo. -/
def rampValue (r : RampState) (step : Nat) : Nat :=
  if r.start ≤ r.target then r.start + (r.target - r.start) * step / r.length
  else r.start - (r.start - r.target) * step / r.length

/-- R132, R116: one ramp step. -/
def Cke.rampStep (k : Cke) : Cke :=
  match k.ramp with
  | some r =>
    { k with
      tempo := k.override.getD (rampValue r (r.step + 1))
      ramp := if r.length ≤ r.step + 1 then none else some { r with step := r.step + 1 } }
  | none => k

/-- R120, R118: the shadow timer restarts from the vote field start; the pending expiry moves when the
tempo after the count differs from the one the timer reloaded with at the expiry that made this beat. -/
def Cke.retime (k : Cke) (vfs : Nat) (own : Bool) : Cke :=
  { k with
    shadow := .running (vfs + beatNs k.tempo)
    beatTimer := k.beatTimer.map (fun bt =>
      match bt.last with
      | some e =>
        if own && k.tempo != bt.reload then { bt with pending := e + beatNs k.tempo } else bt
      | none => bt) }

/-- R125: the accent flag of the counted beat. -/
def Cke.accented (k : Cke) : Bool :=
  match k.part with
  | some part => part.accents.getLsbD (k.beat - 1)
  | none => false

/-- The subdivision of the current click part. -/
def Cke.subdivision (k : Cke) : Nat :=
  match k.part with
  | some part => part.subdivision
  | none => 1

/-- R125, R126: the beat click, and the SUB clicks a RUN beat owes. -/
def Cke.emit (k : Cke) (img : Image) (asRun : Bool) (now : Nat) : Cke :=
  let k1 := k.dropSubs
  if asRun then
    let k2 := k1.sound img (if k.accented then .accent else .beat)
    if 1 < k.subdivision then
      let interval := ticksPerBeat k.tempo / k.subdivision
      { k2 with
        subOwed := k.subdivision - 1, subInterval := interval
        subNext := some (now + interval * Config.tickNs) }
    else k2
  else k1.sound img .count

/-- R136: the compare match of a RUN beat: the loaded cue index when the point is met. -/
def Cke.matches (k : Cke) (asRun : Bool) : Option Nat :=
  match k.compare with
  | some c =>
    if asRun && c.bar == k.bar && c.beat == k.beat && k.vamp.isNone && k.armedTarget.isNone then
      some c.cue
    else none
  | none => none

/-- The reports of a counted beat to SPU (R122 step 5). -/
structure Reports where
  launch : Bool
  armed : Bool
  countIn : Bool
  matched : Option Nat
  deriving DecidableEq, Repr

/-- No report. -/
def Reports.quiet : Reports := { launch := false, armed := false, countIn := false, matched := none }

/-- R122: a counted beat, in the rule's order: position, tempo, timers, clicks, reports. -/
def Cke.count (k : Cke) (img : Image) (run downbeat : Bool) (vfs now : Nat) : Cke × Reports :=
  let p := if downbeat then k.placeDownbeat img run else k.placeBeat run
  let k1 := if p.asRun && !p.begins then p.cke.rampStep else p.cke
  let k2 := (k1.retime vfs k.dueSampled).emit img p.asRun now
  (k2, { launch := p.launch, armed := p.armed, countIn := p.countIn, matched := k2.matches p.asRun })

/-! ## Stop, resume, adoption, TEMPO, resets -/

/-- R137: CKE at an entry to STOPPED. A beat due is withdrawn here, sampled or not: R119 has one already sampled
withdrawn at its vote field complete instead (log entry 61). -/
def Cke.stop (k : Cke) (img : Image) : Cke :=
  { k.clearDue.dropSubs.lowerLanes img noLanes with
    beatTimer := none, shadow := .stopped, ramp := none, launch := false, armedTarget := none,
    countIn := none, resume := none }

/-- The fields of a resume start (R138). -/
structure ResumeStart where
  cue : Nat
  bar : Nat
  countIn : Nat
  tempo : Nat
  override : Option Nat
  pass : Option Nat
  deriving DecidableEq, Repr

/-- R138: a resume start. -/
def Cke.resumeStart (k : Cke) (img : Image) (r : ResumeStart) : Cke :=
  match img.clickOf r.cue with
  | some part =>
    { k.clickStart img r.cue part with
      bar := r.bar, beat := 1, tempo := r.tempo, override := r.override,
      ramp := if r.bar = img.startBar r.cue ∧ r.tempo = part.tempo then rampOf part else none,
      launch := true,
      countIn := if r.countIn = 0 then none else some { bars := r.countIn, bar := 0 },
      resume := some r.pass }
  | none => { k.freeStart img r.cue with countIn := none }

/-- R139: the cue start of an adopted cue, its ramp taken as complete. -/
def Cke.adoptCue (k : Cke) (img : Image) (cue : Nat) : Cke :=
  let k1 := k.cueStart img cue false
  { k1 with
    tempo := (match k1.ramp with
      | some r => r.target
      | none => k1.tempo)
    ramp := none
    armedTarget := none }

/-- R139: the adopted beat, or 1 when it exceeds the meter or the cue is FREE. -/
def Cke.clampBeat (k : Cke) (beat : Nat) : Nat := if k.meter < beat then 1 else beat

/-- R139: CKE takes the adopted position. -/
def Cke.adopt (k : Cke) (img : Image) (cueChanged : Bool) (f : TallyFields) : Cke :=
  let k1 := if cueChanged then k.adoptCue img f.cue else k
  let vamp : Option VampState :=
    match k1.vampPart with
    | some v => if f.vampActive && vampCovers v f.bar then some (vampAt v f.pass) else none
    | none => none
  { k1.dropSubs with
    bar := f.bar, beat := k1.clampBeat f.beat, vamp := vamp, launch := false }

/-- R130: a TEMPO arrival at instant now. -/
def Cke.takeTempo (k : Cke) (f : TempoFields) (now : Nat) : Cke :=
  let k1 := { k with override := some f.tempo, tempo := f.tempo, ramp := none }
  if f.atOnce then
    { k1 with
      beatTimer := k1.beatTimer.map (fun bt => { bt with pending := now + beatNs f.tempo })
      shadow := (match k1.shadow with
        | .stopped => .stopped
        | .running _ | .lapsed => .running (now + beatNs f.tempo)) }
  else k1

/-- R140: a lane at a warm reset keeps its voice lines; the toggle line is low. -/
def LaneOut.warm (l : LaneOut) : LaneOut := { l with level := false }

/-- R140: CKE after a warm reset. The sub timer's interval, of which R140 says nothing, is kept (log entry 35). So is,
in COUNTIN, the pass to restore that the resume start handed, of which it says nothing either: the model's choice
(log entry 65). -/
def Cke.warm (k : Cke) (showState : ShowState) : Cke :=
  let keep := showState == .countin
  { k.clearDue.dropSubs with
    beatTimer := none, shadow := .stopped, ramp := none, launch := false, armedTarget := none,
    countIn := if keep then k.countIn else none, resume := if keep then k.resume else none,
    lanes := { l0 := k.lanes.l0.warm, l1 := k.lanes.l1.warm, l2 := k.lanes.l2.warm,
               l3 := k.lanes.l3.warm },
    tap := none }

/-! ## TAP (R131) -/

/-- R131: the tempo of an interval in ticks, truncated and clamped to 300 to 3000; 3000 for 0. -/
def tapTempo (interval : Nat) : Nat :=
  if interval = 0 then 3000 else max 300 (min 3000 (6000000 / interval))

/-- R131: a TAP press at the instant reached. -/
def State.tap (img : Image) (s : State) : State :=
  if img.isRanked img.station then
    let s1 := s.onCke (fun k => { k with tap := some s.now })
    match s.cke.tap with
    | none => s1
    | some first =>
      let interval := (s.now - first) / Config.tickNs
      if 20000 < interval then s1
      else s1.onLe (fun l => l.submitReplacing (.tempo { tempo := tapTempo interval, atOnce := false }))
  else s

/-! ## Meanings -/

/-- BEAT_TIMER_EXPIRY (R118, R119), at the pending expiry of a running timer. -/
def execBeatTimerExpiry (s : State) : Host.Outcome State Fault Refusal :=
  withImage s (fun _ =>
    match s.cke.beatTimer with
    | some bt => (s.reach bt.pending).onCke (fun k => k.beatExpiry bt.pending)
    | none => s)

/-- SHADOW_TIMER_EXPIRY (R120), at the pending expiry of a running timer: it is lapsed. -/
def execShadowTimerExpiry (s : State) : Host.Outcome State Fault Refusal :=
  withImage s (fun _ =>
    match s.cke.shadow with
    | .running p => (s.reach p).onCke (fun k => { k with shadow := .lapsed })
    | .stopped | .lapsed => s)

/-- SUB_TIMER_EXPIRY (R126, R127): an owed SUB click sounds; a further one falls an interval later. -/
def execSubTimerExpiry (s : State) : Host.Outcome State Fault Refusal :=
  withImage s (fun img =>
    match s.cke.subNext with
    | some e =>
      (s.reach e).onCke (fun k =>
        { k.sound img .sub with
          subOwed := k.subOwed - 1
          subNext :=
            if 1 < k.subOwed then some (e + k.subInterval * Config.tickNs) else none })
    | none => s)

/-- TAP_PRESS (R131, R195), at its instant. -/
def execTapPress (t : Nat) (s : State) (released : Bool := true) : Host.Outcome State Fault Refusal :=
  withPress .tap released s (fun img s1 => (s1.reach t).tap img)

end Sys2Proof.Machine
end

