-- ==== Sys2Proof/Machine/Patch.lean ====
section
/-! DEFINITION. Machine/Patch.lean: the Patch Sequencer (Chapter 5): buffers, staging, the recall scan, fire, hold,
and the meanings of LOAD_STEP, SCAN_STEP, ACTION_SENT and SETTLE_EXPIRY. -/

namespace Sys2Proof.Machine

/-! ## Buffers (R94) -/

/-- R94: a buffer owes a fire when it is DEFERRED, or LOADING with the due mark. -/
def Buffer.owes : Buffer → Bool
  | .deferred _ _ _ => true
  | .loading _ _ due => due
  | _ => false

/-- The target a buffer is prepared for. -/
def Buffer.target : Buffer → Option Nat
  | .empty => none
  | .loading t _ _ => some t
  | .staged t _ _ => some t
  | .deferred t _ _ => some t

/-- The kind of a load. -/
def Load.kind : Load → BufferKind
  | .delta _ _ => .delta
  | .recall => .recall

/-- One port changed. -/
def Psq.onPort (q : Psq) (p : Port) (f : PortRec → PortRec) : Psq :=
  { q with ports := q.ports.set p (f (q.ports.get p)) }

/-- A port's next buffer replaced. -/
def Psq.setBuffer (q : Psq) (p : Port) (b : Buffer) : Psq := q.onPort p (fun r => { r with buffer := b })

/-- R94: a buffer is emptied; its load, or its membership of a running or queued scan, ends. -/
def Psq.emptyBuffer (q : Psq) (p : Port) : Psq :=
  let q' := q.setBuffer p .empty
  { q' with
    scan := q'.scan.map (fun sc => { sc with served := sc.served.set p false })
    queued := q'.queued.map (fun sc => { sc with served := sc.served.set p false }) }

/-- The buffers of a set of ports made EMPTY, the scan that served them having ended. -/
def Psq.dropServed (q : Psq) (served : Ports Bool) : Psq :=
  let q1 := if served.a then q.setBuffer .a .empty else q
  if served.b then q1.setBuffer .b .empty else q1

/-- No port. -/
def noPorts : Ports Bool := { a := false, b := false }

/-- R98: a DELTA load for cue T begins. -/
def Psq.beginDelta (q : Psq) (p : Port) (target : Nat) : Psq :=
  q.setBuffer p (.loading target (.delta 0 []) false)

/-! ## The recall scan (R101 to R104) -/

/-- R102: a scan starts at its target with nothing found. -/
def Scan.start (target : Nat) (purpose : Purpose) (served : Ports Bool) : Scan :=
  { target := target, purpose := purpose, cursor := target,
    found := { a := blankSlots, b := blankSlots }, served := served }

/-- R103: two purposes combine: RESUME if either is. -/
def Purpose.join : Purpose → Purpose → Purpose
  | .call, .call => .call
  | _, _ => .resume

/-- R103: a running scan owes a fire when at least one served buffer carries the due mark. -/
def Psq.scanOwes (q : Psq) (sc : Scan) : Bool :=
  (sc.served.a && q.ports.a.buffer.owes) || (sc.served.b && q.ports.b.buffer.owes)

/-- R103, R104: a port whose buffer has been emptied joins the recall for a target, with a purpose and with
or without the due mark: a scan starts, is joined, is replaced, or the join is queued. -/
def Psq.joinRecall (q : Psq) (p : Port) (target : Nat) (purpose : Purpose) (due : Bool) : Psq :=
  let loading := Buffer.loading target .recall due
  match q.scan with
  | none =>
    { q.setBuffer p loading with scan := some (Scan.start target purpose (noPorts.set p true)) }
  | some sc =>
    if sc.target = target then
      { q.setBuffer p loading with
        scan := some { sc with purpose := sc.purpose.join purpose, served := sc.served.set p true } }
    else if due || !q.scanOwes sc then
      { (q.dropServed sc.served).setBuffer p loading with
        scan := some (Scan.start target purpose (noPorts.set p true)) }
    else
      match q.queued with
      | some w =>
        if w.target = target then
          { q.setBuffer p loading with
            queued :=
              some { w with purpose := w.purpose.join purpose, served := w.served.set p true } }
        else
          { (q.dropServed w.served).setBuffer p loading with
            queued :=
              some { target := target, purpose := purpose, served := noPorts.set p true } }
      | none =>
        { q.setBuffer p loading with
          queued := some { target := target, purpose := purpose, served := noPorts.set p true } }

/-! ## The pending target (R99, R112) -/

/-- What the handing of a pending target does to a port's buffer (R99). -/
inductive HandRow where
  | keep | delta | recall
  deriving DecidableEq, Repr

/-- R99, R112: the first row that applies. cue is SPU's current cue index at the handing. -/
def handRow (b : Buffer) (t : PendingTarget) (cue : Nat) (hold : Bool) : HandRow :=
  let held : Bool :=
    match b with
    | .staged target kind _ => target == t.target && t.kind.accepts kind
    | .loading target load _ => target == t.target && t.kind.accepts load.kind
    | _ => false
  if b.owes then (if hold && t.kind == .resume then .recall else .keep)
  else if held then .keep
  else if t.kind == .call && t.target == cue + 1 then .delta
  else .recall

/-- R99: the buffer of a row that does not keep it is emptied. -/
def Psq.handEmpty (q : Psq) (p : Port) : HandRow → Psq
  | .keep => q
  | .delta | .recall => q.emptyBuffer p

/-- R99: then a DELTA load begins or the port joins the recall. -/
def Psq.handBegin (q : Psq) (p : Port) (t : PendingTarget) : HandRow → Psq
  | .keep => q
  | .delta => q.beginDelta p t.target
  | .recall => q.joinRecall p t.target t.kind false

/-- R98, R99: a port meets the pending target. -/
def Psq.handPort (q : Psq) (p : Port) (t : PendingTarget) (cue : Nat) : Psq :=
  let row := handRow (q.ports.get p).buffer t cue q.hold
  (q.handEmpty p row).handBegin p t row

/-- R99: SPU hands PSQ a pending target; the ports that join join one scan (R103). -/
def Psq.handTarget (q : Psq) (t : PendingTarget) (cue : Nat) : Psq :=
  let rowA := handRow q.ports.a.buffer t cue q.hold
  let rowB := handRow q.ports.b.buffer t cue q.hold
  let q1 := ({ q with target := some t }.handEmpty .a rowA).handEmpty .b rowB
  ((q1.handBegin .a t rowA).handBegin .b t rowB).judge

/-- R99: SPU withdraws the pending target; buffers, loads and scan stand. -/
def Psq.withdraw (q : Psq) : Psq := { q with target := none }.judge

/-! ## Fire (R105 to R109) -/

/-- R98: after a fire the buffer is prepared for the staging target. -/
def Psq.prepare (q : Psq) (img : Image) (cue : Nat) (p : Port) (fired : Nat) : Psq :=
  let next := if fired + 1 < img.cueCount then q.beginDelta p (fired + 1) else q
  match q.target with
  | some t => if t.target ≠ fired then q.handPort p t cue else next
  | none => next

/-- R106 step 1: a RECALL reference already in the instrument is removed. -/
def suppress (img : Image) (slots : List (Option Nat)) (refs : List Nat) : List Nat :=
  refs.filter (fun i =>
    match img.pool[i]? with
    | some a => slots.getD a.slot none != some i
    | none => true)

/-- R106: the buffer's references fire into the IDLE port; SENDING begins unless none remains. -/
def Psq.fireInto (q : Psq) (img : Image) (cue : Nat) (p : Port) (target : Nat) (kind : BufferKind)
    (refs : List Nat) : Psq :=
  let q1 := q.onPort p (fun r =>
    let list := if kind = .recall then suppress img r.slots refs else refs
    { r with
      list := list, buffer := .empty, state := if list.isEmpty then .idle else .sending })
  q1.prepare img cue p target

/-- R98, R102, R107, R110: a load or scan ends for a port: STAGED, and with the due mark it fires, or
becomes DEFERRED behind a busy port or a hold. R110 says so of a due DELTA load under a hold; for a due
buffer of a RESUME scan that ends under one it does not, and the model takes it alike (log entry 56). -/
def Psq.endLoad (q : Psq) (img : Image) (cue : Nat) (p : Port) (target : Nat) (kind : BufferKind)
    (refs : List Nat) (due : Bool) : Psq :=
  if due then
    if q.hold || (q.ports.get p).state != .idle then q.setBuffer p (.deferred target kind refs)
    else q.fireInto img cue p target kind refs
  else q.setBuffer p (.staged target kind refs)

/-- The two forms of a fire request (R105). -/
inductive FireForm where
  | ordinary | recall
  deriving DecidableEq, Repr

/-- R105: the buffer kinds a form accepts. -/
def FireForm.accepts : FireForm → BufferKind → Bool
  | .ordinary, _ => true
  | .recall, .recall => true
  | .recall, .delta => false

/-- What a fire request does at a port (R105). -/
inductive FireRow where
  | unchanged
  | fires (kind : BufferKind) (refs : List Nat)
  | defers (kind : BufferKind) (refs : List Nat)
  | marksDue
  | replaces
  | joins
  deriving DecidableEq, Repr

/-- R105: the first row that applies. -/
def fireRow (r : PortRec) (form : FireForm) (target : Nat) : FireRow :=
  if r.buffer.owes then (if r.buffer.target = some target then .unchanged else .replaces)
  else
    match r.buffer with
    | .staged t kind refs =>
      if t = target ∧ form.accepts kind then
        (if r.state.busy then .defers kind refs else .fires kind refs)
      else .joins
    | .loading t load _ => if t = target ∧ form.accepts load.kind then .marksDue else .joins
    | _ => .joins

/-- R109: the reason of the PATCH-LATE notice a row posts. -/
def FireRow.reason : FireRow → Option Nat
  | .unchanged => none
  | .fires _ _ => none
  | .defers _ _ => some 1
  | .replaces => some 2
  | .marksDue => some 3
  | .joins => some 3

/-- R105, R108: the buffer of a port that is to join the recall is emptied. -/
def Psq.fireEmpty (q : Psq) (p : Port) : FireRow → Psq
  | .replaces | .joins => q.emptyBuffer p
  | .unchanged | .fires _ _ | .defers _ _ | .marksDue => q

/-- R105: the row takes place at the port. -/
def Psq.fireApply (q : Psq) (img : Image) (cue : Nat) (p : Port) (target : Nat) : FireRow → Psq
  | .unchanged => q
  | .fires kind refs => q.fireInto img cue p target kind refs
  | .defers kind refs => q.setBuffer p (.deferred target kind refs)
  | .marksDue =>
    q.onPort p (fun r =>
      match r.buffer with
      | .loading t load _ => { r with buffer := .loading t load true }
      | _ => r)
  | .replaces | .joins => q.joinRecall p target .call true

/-- R111: a port at the end of a hold: a busy port keeps its action in progress, every other port's list is
emptied and it is IDLE; a DEFERRED buffer is discarded and a due mark removed. -/
def PortRec.endHold (r : PortRec) : PortRec :=
  let buffer : Buffer :=
    match r.buffer with
    | .deferred _ _ _ => .empty
    | .loading t load _ => .loading t load false
    | b => b
  if r.state.busy then { r with list := r.list.take 1, buffer := buffer }
  else { r with list := [], state := .idle, buffer := buffer }

/-- R111: the hold, if in force, ends at a fire request. -/
def Psq.endHold (q : Psq) : Psq :=
  if q.hold then
    { q with ports := { a := q.ports.a.endHold, b := q.ports.b.endHold }, hold := false }
  else q

/-- R105: the rows of a fire request at the two ports, after the hold has ended. -/
def Psq.fireRows (q : Psq) (form : FireForm) (target : Nat) : Ports FireRow :=
  { a := fireRow q.endHold.ports.a form target, b := fireRow q.endHold.ports.b form target }

/-- R105: a fire request for a target. cue is SPU's current cue index. -/
def Psq.fire (q : Psq) (img : Image) (cue : Nat) (form : FireForm) (target : Nat) : Psq :=
  let rows := q.fireRows form target
  let q1 := (q.endHold.fireEmpty .a rows.a).fireEmpty .b rows.b
  ((q1.fireApply img cue .a target rows.a).fireApply img cue .b target rows.b).judge

/-! ## Hold (R110) -/

/-- R103: a running scan takes up the purpose and the ports of a queued scan for its target. -/
def Scan.merge (sc : Scan) (w : QueuedScan) : Scan :=
  { sc with
    purpose := sc.purpose.join w.purpose
    served := { a := sc.served.a || w.served.a, b := sc.served.b || w.served.b } }

/-- R102, R104: with no scan running, the queued scan starts. A scan that a fire at the end of the last one
has started goes on: it takes up a queued scan for its own target, and one for another waits for its end
(log entry 21). -/
def Psq.followScan (q : Psq) : Psq :=
  match q.queued, q.scan with
  | some w, none => { q with scan := some (Scan.start w.target w.purpose w.served), queued := none }
  | some w, some sc =>
    if sc.target = w.target then { q with scan := some (sc.merge w), queued := none } else q
  | none, _ => q

/-- R110: SPU tells PSQ to hold. A RESUME scan that was queued behind an ended scan starts (R104). -/
def Psq.beginHold (q : Psq) : Psq :=
  if q.hold then q
  else
    let q1 : Psq :=
      match q.scan with
      | some sc =>
        if sc.purpose = .call then { q.dropServed sc.served with scan := none } else q
      | none => q
    let q2 : Psq :=
      match q1.queued with
      | some w =>
        if w.purpose = .call then { q1.dropServed w.served with queued := none } else q1
      | none => q1
    { q2.followScan with hold := true }.judge

/-! ## Resets (R113, R114) and image accepted -/

/-- R114: a port after a warm reset keeps its slot image. -/
def PortRec.warm (r : PortRec) : PortRec := { PortRec.cold with slots := r.slots }

/-- R114: PSQ after a warm reset; the hold is in force in STOPPED and STANDBY. -/
def Psq.warm (q : Psq) (showState : ShowState) : Psq :=
  { Psq.cold with
    ports := { a := q.ports.a.warm, b := q.ports.b.warm }
    hold := showState == .stopped || showState == .standby }

/-- R98, R113: at image accepted each port begins a DELTA load for cue 1. -/
def Psq.start : Psq := (Psq.cold.beginDelta .a 1).beginDelta .b 1

/-! ## Load and scan steps (R98, R102) -/

/-- R98: one load step of a port's DELTA load. -/
def Psq.loadStep (q : Psq) (img : Image) (cue : Nat) (p : Port) : Psq :=
  match (q.ports.get p).buffer with
  | .loading target (.delta next kept) due =>
    let part := img.patchOf target
    let kept' :=
      match part[next]? with
      | some i =>
        match img.pool[i]? with
        | some a => if a.port = some p then kept ++ [i] else kept
        | none => kept
      | none => kept
    if part.length ≤ next + 1 then (q.endLoad img cue p target .delta kept' due).judge
    else (q.setBuffer p (.loading target (.delta (next + 1) kept') due)).judge
  | _ => q

/-- R102: one action examined: its index is recorded for its port and slot unless one is found already. -/
def foundAction (img : Image) (found : Ports (List (Option Nat))) (i : Nat) :
    Ports (List (Option Nat)) :=
  match img.pool[i]? with
  | some a =>
    match a.port with
    | some p =>
      if (found.get p).getD a.slot none = none then
        found.set p ((found.get p).set a.slot (some i))
      else found
    | none => found
  | none => found

/-- R102: the cue at the cursor is examined in reverse pool order. -/
def Scan.examine (img : Image) (sc : Scan) : Ports (List (Option Nat)) :=
  (img.patchOf sc.cursor).reverse.foldl (foundAction img) sc.found

/-- All 32 entries found. -/
def allFound (found : Ports (List (Option Nat))) : Bool :=
  found.a.all Option.isSome && found.b.all Option.isSome

/-- R102: the references found for a port, in ascending slot order. -/
def foundRefs (slots : List (Option Nat)) : List Nat := slots.filterMap id

/-- R102: at the end of the scan a served buffer enters STAGED, then fires or defers if it is due. -/
def Psq.endServed (q : Psq) (img : Image) (cue : Nat) (p : Port) (sc : Scan)
    (found : Ports (List (Option Nat))) : Psq :=
  if sc.served.get p then
    match (q.ports.get p).buffer with
    | .loading target .recall due => q.endLoad img cue p target .recall (foundRefs (found.get p)) due
    | _ => q
  else q

/-- R102: one scan step. At the end of the scan its served buffers are STAGED and the due ones fire or are
deferred; then the queued scan starts. -/
def Psq.scanStep (q : Psq) (img : Image) (cue : Nat) : Psq :=
  match q.scan with
  | none => q
  | some sc =>
    let found := sc.examine img
    if allFound found || decide (sc.cursor ≤ 1) then
      let q1 := ({ q with scan := none }.endServed img cue .a sc found).endServed img cue .b sc found
      q1.followScan.judge
    else { q with scan := some { sc with found := found, cursor := sc.cursor - 1 } }

/-! ## Sending and settling (R96, R97) -/

/-- R96: the last byte of the head action ends. -/
def Psq.actionSent (q : Psq) (img : Image) (p : Port) (now : Nat) : Psq :=
  let r := q.ports.get p
  match r.state, r.list with
  | .sending, i :: _ =>
    match img.pool[i]? with
    | some a =>
      (q.onPort p (fun r =>
        { r with
          slots := r.slots.set a.slot (some i)
          state := .settling
          sendEnd := none
          settle := some (now + a.settle.getD 0 * Config.msNs) })).judge
    | none => q
  | _, _ => q

/-- R97: settle expiry: the head is removed and the port goes on by the table; a DEFERRED buffer fires into
a port left IDLE with no hold in force (R107). -/
def Psq.settleExpiry (q : Psq) (img : Image) (cue : Nat) (p : Port) : Psq :=
  let r := q.ports.get p
  match r.state with
  | .settling =>
    let rest := r.list.tail
    let state : PortState :=
      if rest.isEmpty then .idle else if q.hold then .held else .sending
    let q1 := q.onPort p (fun r => { r with list := rest, state := state, settle := none })
    (match r.buffer with
      | .deferred target kind refs =>
        if state == PortState.idle && !q.hold then q1.fireInto img cue p target kind refs else q1
      | _ => q1).judge
  | _ => q

/-! ## The instants of the sends (R91, R96) -/

/-- R96: a port that has entered SENDING (it was not SENDING before) sends its head action from the instant
reached, at its rate. -/
def PortRec.beginSend (r : PortRec) (img : Image) (p : Port) (now : Nat) (before : PortRec) :
    PortRec :=
  match before.state, r.state, r.list with
  | .sending, _, _ => r
  | _, .sending, i :: _ => { r with sendEnd := some (now + img.sendTime p i) }
  | _, _, _ => r

/-- R96: the ports that an operation has brought into SENDING begin to send. -/
def Psq.beginSends (q before : Psq) (img : Image) (now : Nat) : Psq :=
  { q with
    ports := { a := q.ports.a.beginSend img .a now before.ports.a
               b := q.ports.b.beginSend img .b now before.ports.b } }

/-- An operation of PSQ at the instant reached, with the sends it begins (R96). -/
def State.onPorts (img : Image) (f : Psq → Psq) (s : State) : State :=
  s.onPsq (fun q => (f q).beginSends q img s.now)

/-! ## Meanings -/

/-- LOAD_STEP (R98), at its instant. -/
def execLoadStep (p : Port) (s : State) (t : Nat := 0) : Host.Outcome State Fault Refusal :=
  withImage s (fun img => (s.reach t).onPorts img (fun q => q.loadStep img s.spu.cue p))

/-- SCAN_STEP (R102), at its instant. -/
def execScanStep (s : State) (t : Nat := 0) : Host.Outcome State Fault Refusal :=
  withImage s (fun img => (s.reach t).onPorts img (fun q => q.scanStep img s.spu.cue))

/-- ACTION_SENT (R96): the last stop bit of the send in progress ends, at the instant the port's rate gives;
before it the event cannot come, and nothing takes place (log entry 3). -/
def execActionSent (p : Port) (t : Nat) (s : State) : Host.Outcome State Fault Refusal :=
  withImage s (fun img =>
    match (s.psq.ports.get p).sendEnd with
    | some e =>
      if e ≤ max s.now t then
        let s1 := s.reach e
        s1.onPsq (fun q => q.actionSent img p s1.now)
      else s
    | none => s)

/-- SETTLE_EXPIRY (R97), at the pending expiry. -/
def execSettleExpiry (p : Port) (s : State) : Host.Outcome State Fault Refusal :=
  withImage s (fun img =>
    match (s.psq.ports.get p).settle with
    | some e => (s.reach e).onPorts img (fun q => q.settleExpiry img s.spu.cue p)
    | none => s)

end Sys2Proof.Machine
end

