-- ==== Sys2Proof/Machine/Selector.lean ====
section
/-! DEFINITION. Machine/Selector.lean: the operations of the Video Selector (Chapter 7): monitors, desired source,
choice, switching, captions. -/

namespace Sys2Proof.Machine

/-- R142: the source table: cue 0's video part or FRONT, then each cue's part or the source before it. -/
def sourceTable (img : Image) : List Source :=
  ((List.range img.cueCount).foldl (fun (x : List Source × Source) k =>
    let src :=
      match img.videoOf k with
      | .source s => s
      | .keep | .other => x.2
    (x.1 ++ [src], src)) ([], Source.front)).1

/-- R146: the desired source. -/
def Vsl.desiredFor (v : Vsl) (img : Image) (cue : Nat) (showState : ShowState) : Option Source :=
  if img.inService then
    match v.override with
    | some x => some x
    | none => if showState = .preshow then some .front else some (v.table.getD cue .front)
  else none

/-- A monitor is LOCKED. -/
def Vsl.locked (v : Vsl) (x : Source) : Bool := (v.monitors.get x).lock == .locked

/-- R148 rules 2 to 4: the live source, else the first LOCKED source of the failover order, else none. -/
def Vsl.fallback (v : Vsl) (img : Image) : Option Source :=
  match v.live with
  | some x => some x
  | none => (img.failover.filterMap id).find? (fun x => v.locked x)

/-- R148: the choice: the desired source when it is LOCKED, else the fallback. -/
def Vsl.choice (v : Vsl) (img : Image) : Option Source :=
  match v.desired with
  | some d => if v.locked d then some d else v.fallback img
  | none => v.fallback img

/-- R148: re-choosing: a choice other than the live source becomes the pending switch. -/
def Vsl.rechoose (v : Vsl) (img : Image) : Vsl :=
  { v with pendingSwitch := if v.choice img = v.live then none else v.choice img }

/-- R150: CAMFAIL is posted in service while the live source differs from the desired source. -/
def Vsl.judgeCamfail (v : Vsl) (img : Image) : Vsl :=
  { v with camfail := img.inService && v.live != v.desired }

/-- R146: the desired source is derived again; when it changes VSL re-chooses and re-judges CAMFAIL. -/
def Vsl.rederive (v : Vsl) (img : Image) (cue : Nat) (showState : ShowState) : Vsl :=
  let d := v.desiredFor img cue showState
  if d = v.desired then v else ({ v with desired := d }.rechoose img).judgeCamfail img

/-- R146: SPU hands VSL its cue index and show state. -/
def State.handVideo (img : Image) (s : State) : State :=
  s.onVsl (fun v => v.rederive img s.spu.cue s.spu.showState)

/-- R143: a frame sync at a monitor. -/
def Monitor.pulse (m : Monitor) (window now : Nat) : Monitor :=
  let lock : LockState :=
    match m.lock with
    | .unlocked => .locking 0
    | .locking g => if m.expired then .locking 0 else if 8 ≤ g + 1 then .locked else .locking (g + 1)
    | .locked => .locked
  { lock := lock, misses := 0, expired := false, window := some (now + window) }

/-- R144: a frame window expiry at instant e of a monitor in LOCKING or LOCKED. -/
def Monitor.miss (m : Monitor) (window e : Nat) : Monitor :=
  match m.lock with
  | .unlocked => m
  | .locking _ =>
    if 3 ≤ m.misses + 1 then Monitor.cold
    else { m with misses := m.misses + 1, expired := true, window := some (e + window) }
  | .locked =>
    if 3 ≤ m.misses + 1 then Monitor.cold
    else { m with misses := m.misses + 1, window := some (e + window) }

/-- A monitor replaced. -/
def Vsl.setMonitor (v : Vsl) (i : Source) (m : Monitor) : Vsl :=
  { v with monitors := v.monitors.set i m }

/-- R149: the pending switch takes place. -/
def Vsl.switchTo (v : Vsl) (img : Image) (i : Source) : Vsl :=
  (({ v with live := some i, pendingSwitch := none, slate := none }).judgeCamfail img).rechoose img

/-- R147: the live source is lost at instant e. -/
def Vsl.loseLive (v : Vsl) (img : Image) (e : Nat) : Vsl :=
  (({ v with live := none, slate := some (e + img.frameWindow) }).judgeCamfail img).rechoose img

/-- R153: at a frame boundary an idle composer with CAP_READY asserted composes a record and begins to
send it; otherwise the frame's caption is skipped. -/
def State.captionFrame (img : Image) (ready : Bool) (s : State) : State :=
  match s.vsl.composer with
  | .idle =>
    if ready then
      s.onVsl (fun v => { v with composer := .sending (s.caption img) (s.now + Config.captionNs) })
    else s
  | .sending _ _ => s

/-- R149, R151: at a frame boundary of input i, a pending switch to it takes place. -/
def State.switchFrame (img : Image) (i : Source) (s : State) : State :=
  if s.vsl.pendingSwitch = some i then
    (s.onVsl (fun v => v.switchTo img i)).post .vsl .camera img.station 1 (sourceCode i)
  else s

/-- R143, R148, R149, R153: a frame sync on input i at the instant reached. -/
def State.syncFrame (img : Image) (i : Source) (ready : Bool) (s : State) : State :=
  if img.inService then
    let m := s.vsl.monitors.get i
    let s1 := s.onVsl (fun v => v.setMonitor i (m.pulse img.frameWindow s.now))
    if m.lock = .locked then
      let s2 := s1.switchFrame img i
      if s2.vsl.live = some i then s2.captionFrame img ready else s2
    else s1.onVsl (fun v => v.rechoose img)
  else s

/-- R144, R147, R148: a frame window expiry of input i at its pending instant e. -/
def State.windowExpiry (img : Image) (i : Source) (e : Nat) (s : State) : State :=
  let m := (s.vsl.monitors.get i).miss img.frameWindow e
  let s1 := s.onVsl (fun v => v.setMonitor i m)
  if m.lock = .unlocked then
    if s.vsl.live = some i then
      (s1.onVsl (fun v => v.loseLive img e)).post .vsl .camera img.station 1 3
    else s1.onVsl (fun v => v.rechoose img)
  else s1

/-- R151: VSL takes the CAMFAIL bit of a result; a change posts a CAMERA notice. -/
def State.takePitCamfail (img : Image) (b : Bool) (s : State) : State :=
  if b = s.vsl.pitCamfail then s
  else
    (s.onVsl (fun v => { v with pitCamfail := b })).post .vsl .camera img.station (if b then 2 else 3) 0

/-- R145: a CAMERA arrival sets or clears the override, and the desired source follows. -/
def State.takeCamera (img : Image) (x : Option Source) (s : State) : State :=
  (s.onVsl (fun v => { v with override := x })).handVideo img

/-- R142, R157: VSL at image accepted at an instant: in service the desired source is FRONT, CAMFAIL is
posted and the slate timer starts. -/
def Vsl.start (img : Image) (now : Nat) : Vsl :=
  { Vsl.cold with
    table := sourceTable img
    desired := if img.inService then some .front else none
    camfail := img.inService
    slate := if img.inService then some (now + img.frameWindow) else none }

/-- R157: VSL after a warm reset at an instant. -/
def Vsl.warm (v : Vsl) (img : Image) (cue : Nat) (showState : ShowState) (now : Nat) : Vsl :=
  let d := v.desiredFor img cue showState
  { Vsl.cold with
    table := v.table
    override := v.override
    desired := d
    camfail := img.inService && d.isSome
    slate := if img.inService then some (now + img.frameWindow) else none }

end Sys2Proof.Machine
end

