-- ==== Sys2Proof/Machine/Stop.lean ====
section
/-! DEFINITION. Machine/Stop.lean: show stops (Chapter 8, 8.1 to 8.4): raising, entering STOPPED, the snapshot,
release, STANDBY, the video stop, and the meanings of STOP_PRESS, RELEASE_PRESS, SAFETY_ASSERTION and
SAFETY_DEASSERTION. -/

namespace Sys2Proof.Machine

/-! ## Entering STOPPED (R163 to R167) -/

/-- R166: the snapshot of the position at the stop; from STANDBY (and in STOPPED) the one held. -/
def State.snapshotAtStop (img : Image) (s : State) : Option Snapshot :=
  match s.spu.showState with
  | .preshow | .run =>
    some { cue := s.spu.cue, bar := s.shownBar img, beat := s.shownBeat img,
           vamp := s.cke.vamp.map VampState.pass, tempo := s.cke.tempo,
           tempoOverride := s.cke.override, cameraOverride := s.vsl.override }
  | .countin =>
    let r : RestartRecord :=
      match s.spu.restart with
      | some r => r
      | none => { bar := s.shownBar img, pass := none }
    some { cue := s.spu.cue, bar := r.bar, beat := 1, vamp := r.pass, tempo := s.cke.tempo,
           tempoOverride := s.cke.override, cameraOverride := s.vsl.override }
  | .standby | .stopped => s.spu.snapshot

/-- R80: CALL-DROPPED where the proposal is the station's own: reason, and 1 when it had armed. -/
def State.callDropped (img : Image) (o : Origin) (proposer reason armed : Nat) (s : State) : State :=
  if proposer = img.station then s.post o .callDropped img.station reason armed else s

/-- R176: the RESUME notice at the proposer of a RESUME dropped by DISSENT (2) or STOP (3). -/
def State.resumeDropped (img : Image) (o : Origin) (proposer reason : Nat) (s : State) : State :=
  if proposer = img.station then s.post o .resume img.station reason 0 else s

/-- R165 step 3: the notices of the proposals an entry to STOPPED drops. -/
def State.dropNotices (img : Image) (s : State) : State :=
  let s1 :=
    match s.spu.proposal with
    | some (.call c) => s.callDropped img .spu c.proposer 2 0
    | some (.resume r) => s.resumeDropped img .spu r.proposer 3
    | none => s
  let s2 :=
    match s.spu.observed with
    | some c => s1.callDropped img .spu c.proposer 2 0
    | none => s1
  match s.spu.armed with
  | some a => s2.callDropped img .spu a.proposer 2 1
  | none => s2

/-- R165: SPU's record at an entry to STOPPED. -/
def Spu.stopped (u : Spu) (snapshot : Option Snapshot) : Spu :=
  { u with
    snapshot := snapshot, showState := .stopped, proposal := none, observed := none, armed := none,
    launchPending := false, restart := none }

/-- R163, R165, R167: an entry to STOPPED, with the STOP notice's details; in STOPPED nothing. R165 hands VSL
the new show state; the picture, the desired source and CAMFAIL stay as R156 gives, from PRESHOW too, where
R146's list would give another desired source (log entry 57); an adoption hands VSL after the entry (R184). -/
def State.enterStopped (img : Image) (d1 station d2 : Nat) (s : State) : State :=
  if s.spu.showState = .stopped then s
  else
    let s1 := s.dropNotices img
    let s2 := s1.onSpu (fun u => u.stopped (s.snapshotAtStop img))
    let s3 := (s2.onPsq (fun q => q.withdraw.beginHold)).onCke (fun k => k.stop img)
    s3.post .spu .stop station d1 d2

/-! ## Raising a stop (R159 to R162) -/

/-- R35: a break is being driven at an instant: it lasts one character time. -/
def Le.breakNow (l : Le) (now : Nat) : Bool := l.breakDriving.isSome && decide (now < l.breakUntil)

/-- R35: a break request at an instant: kept only in JOINED, and merged into a break waiting or being driven. -/
def Le.requestBreak (l : Le) (now : Nat) : Le :=
  if l.state = .joined && !l.breakNow now then { l with breakPending := true } else l

/-- R159: a raise. Its break request is judged at the station's instant: every command that can raise a stop carries
its own instant or comes at one the model holds (log entry 1). -/
def State.raiseStop (img : Image) (reason : StopReason) (detail : Byte) (s : State) : State :=
  if s.spu.ownStop then s
  else
    let s1 := s.onSpu (fun u => { u with ownStop := true, stopPosted := true })
    let s2 := s1.onLe (fun l => (l.requestBreak s.now).submitHalt { reason := reason, detail := detail })
    s2.enterStopped img 1 img.station reason.code

/-! ## The video stop (R155) and the end of an event -/

/-- R155: a VIDEO-CRITICAL station, live source none, show state RUN, current cue FREE. -/
def State.videoStopCondition (img : Image) (s : State) : Bool :=
  img.roles.videoCritical && s.vsl.live.isNone && s.spu.showState == .run && img.isFree s.spu.cue

/-- R155: the stop request of an event that makes the condition true. -/
def State.videoStop (img : Image) (s before : State) : State :=
  if s.videoStopCondition img && !before.videoStopCondition img then s.raiseStop img .video 0 else s

/-- The end of an event that brought the station from before to s: the video stop (R155), the click timers
(R117, R118, R121), the postings (R193). -/
def State.conclude (img : Image) (s before : State) : State :=
  ((s.videoStop img before).settleClick img).flush

/-! ## Release and STANDBY (R169, R170) -/

/-- R169: what a release request does. -/
def State.release (img : Image) (s : State) : State :=
  if s.con.safetyLine then s.post .spu .stop img.station 6 2
  else if s.spu.ownStop then
    (s.onSpu (fun u => { u with ownStop := false, stopPosted := false })).post .spu .stop img.station 7 0
  else s

/-- R170: an entry to STANDBY. VSL is handed the state; from STOPPED the desired source stays (R146, R156). -/
def State.enterStandby (img : Image) (s : State) : State :=
  (s.onSpu (fun u => { u with showState := .standby })).post .spu .standby img.station
    s.spu.origin.length (bit s.spu.snapshot.isSome)

/-! ## Meanings -/

/-- STOP_PRESS (R159, R195): a stop request with reason BUTTON, at its instant. -/
def execStopPress (s : State) (released : Bool := true) (t : Nat := 0) :
    Host.Outcome State Fault Refusal :=
  withPress .stop released s (fun img s1 => ((s1.reach t).raiseStop img .button 0).conclude img s1)

/-- RELEASE_PRESS (R169, R195). -/
def execReleasePress (s : State) (released : Bool := true) : Host.Outcome State Fault Refusal :=
  withPress .release released s (fun img s1 => (s1.release img).flush)

/-- SAFETY_ASSERTION (R160, R195): a change of the filtered level, at its instant; from image accepted it
raises a stop with reason SAFETY. -/
def execSafetyAssertion (s : State) (t : Nat := 0) : Host.Outcome State Fault Refusal :=
  if s.con.safetyLine then .next s
  else
    let s1 := s.onCon (fun c => { c with safetyLine := true })
    withImage s1 (fun img => ((s1.reach t).raiseStop img .safety 0).conclude img s1)

/-- SAFETY_DEASSERTION (R160): the level falls, and nothing else. -/
def execSafetyDeassertion (s : State) : Host.Outcome State Fault Refusal :=
  .next (s.onCon (fun c => { c with safetyLine := false }))

end Sys2Proof.Machine
end

