-- ==== Sys2Proof/Machine/Agree.lean ====
section
/-! DEFINITION. Machine/Agree.lean: cue agreement (Chapter 4): GO requests, the judgement of a CALL, the vote
decision, commits and their effects, auto-GO, and the meaning of GO_PRESS. -/

namespace Sys2Proof.Machine

/-! ## The suspect flag (R181, R186) -/

/-- R181, R186: an event sets the suspect flag; the reference wait count returns to 0. -/
def Spu.setSuspect (u : Spu) : Spu := { u with suspect := true, refWait := 0 }

/-- R181, R186: an event clears the suspect flag; the reference wait count returns to 0. -/
def Spu.clearSuspect (u : Spu) : Spu := { u with suspect := false, refWait := 0 }

/-! ## Taking effect (R76, R78, R82, R85 to R87) -/

/-- How a commit takes effect (R85: detail 1 of the notice). -/
inductive How where
  | immediate | downbeat | autoGo
  deriving DecidableEq, Repr

/-- R85: detail 1 of the CUE notice. -/
def How.code : How → Nat
  | .immediate => 1
  | .downbeat => 2
  | .autoGo => 3

/-- A commit that takes effect (R85). -/
structure Commit where
  target : Nat
  proposer : Nat
  how : How
  forced : Bool
  observed : Bool
  deriving DecidableEq, Repr

/-- R105, R109, R189: SPU hands PSQ a fire request; the restart recall is discharged; each port's row
with a reason posts PATCH-LATE. -/
def State.fireRequest (img : Image) (form : FireForm) (target : Nat) (s : State) : State :=
  let rows := s.psq.fireRows form target
  let s1 := s.onSpu (fun u => { u with restartRecall := false })
  let s2 :=
    match rows.a.reason with
    | some r => s1.post .psqA .patchLate img.station 1 r
    | none => s1
  let s3 :=
    match rows.b.reason with
    | some r => s2.post .psqB .patchLate img.station 2 r
    | none => s2
  s3.onPorts img (fun q => q.fire img s.spu.cue form target)

/-- R85: the show position record at a commit. -/
def Spu.committed (u : Spu) (img : Image) (c : Commit) : Spu :=
  { u with
    lastTransition := some (u.cue, c.target), cue := c.target, showState := .run,
    late := if c.how = .autoGo then u.late else c.forced,
    launchPending := c.how != .downbeat && !img.isFree c.target }

/-- R85, R86, R87: a commit takes effect: the record, the notice, and the hand-offs to PSQ, CKE and VSL.
At an armed downbeat CKE has made its cue start already (R128). -/
def State.applyCommit (img : Image) (c : Commit) (s : State) : State :=
  if c.target = s.spu.cue then s
  else
    let s1 := s.onSpu (fun u => u.committed img c)
    let s2 := s1.post .spu (if c.forced then .cueLate else .cue) c.proposer c.how.code (bit c.observed)
    let s3 := s2.fireRequest img .ordinary c.target
    let s4 :=
      if c.how = .downbeat then s3
      else s3.onCke (fun k => k.cueStart img c.target (!img.isFree c.target))
    s4.handVideo img

/-- R82: the taking effect of a committed observed CALL: SPU clears the suspect flag, in local running too,
where R187 says that it keeps its value (log entry 58). -/
def State.applyObserved (img : Image) (c : Commit) (s : State) : State :=
  if c.target = 0 ∨ img.cueCount ≤ c.target then s
  else (s.applyCommit img c).onSpu Spu.clearSuspect

/-- A commit taking effect, voted or observed. -/
def State.takeEffect (img : Image) (c : Commit) (s : State) : State :=
  if c.observed then s.applyObserved img c else s.applyCommit img c

/-! ## The vote decision (R73 to R77, R81) -/

/-- R77, R81: a commit takes effect at its vote field: "when" immediate, or the current cue is FREE; and an
observed target that is 0, out of range or the current cue. -/
def Spu.atOnce (u : Spu) (img : Image) (f : CallFields) (observed : Bool) : Bool :=
  !f.downbeat || img.isFree u.cue ||
    (observed && (f.target == 0 || decide (img.cueCount ≤ f.target) || f.target == u.cue))

/-- R76, R77: the commit of a held CALL: it takes effect, or arms the station. -/
def State.commitCall (img : Image) (h : HeldCall) (forced observed : Bool) (s : State) : State :=
  if s.spu.atOnce img h.call observed then
    s.takeEffect img
      { target := h.call.target, proposer := h.proposer, how := .immediate, forced := forced,
        observed := observed }
  else
    (s.onSpu (fun u =>
      { u with
        armed := some { proposer := h.proposer, call := h.call, forced := forced,
                        observed := observed } })).onCke
      (fun k => { k with armedTarget := some h.call.target })

/-- The pending proposal becomes absent and SPU withdraws the pending target (R73, R99). -/
def State.clearProposal (s : State) : State :=
  (s.onSpu (fun u => { u with proposal := none })).onPsq Psq.withdraw

/-- R73: the decision of a pending CALL at a clean vote field without STOP. -/
def State.decideCall (img : Image) (seen : Contributions) (h : HeldCall) (s : State) : State :=
  if seen.dissent then s.clearProposal.callDropped img .spu h.proposer 1 0
  else if seen.notReady then
    if 0 < h.patience then
      s.onSpu (fun u =>
        { u with proposal := some (.call { h with patience := h.patience - 1 }) })
    else s.clearProposal.commitCall img h true false
  else s.clearProposal.commitCall img h false false

/-- R81: the decision of an observed CALL at a clean vote field without STOP. -/
def State.decideObserved (img : Image) (seen : Contributions) (h : HeldCall) (s : State) : State :=
  let dropped := s.onSpu (fun u => { u with observed := none })
  if seen.dissent then dropped.callDropped img .spu h.proposer 1 0
  else if seen.notReady then
    if 0 < h.patience then
      s.onSpu (fun u => { u with observed := some { h with patience := h.patience - 1 } })
    else dropped.commitCall img h true true
  else dropped.commitCall img h false true

/-- R78: the armed downbeat event; ignored with no armed GO held. -/
def State.armedDownbeat (img : Image) (s : State) : State :=
  match s.spu.armed with
  | some a =>
    (s.onSpu (fun u => { u with armed := none })).takeEffect img
      { target := a.call.target, proposer := a.proposer, how := .downbeat, forced := a.forced,
        observed := a.observed }
  | none => s

/-- R84: the conditions of an auto-GO commit. -/
def Spu.takesMatch (u : Spu) (img : Image) (cue : Nat) : Bool :=
  u.showState == .run && cue == u.cue && decide (u.cue + 1 < img.cueCount) && u.armed.isNone

/-- R84: a compare match: the next cue is committed without a vote; a held CALL is dropped. -/
def State.autoGo (img : Image) (cue : Nat) (s : State) : State :=
  if s.spu.takesMatch img cue then
    let s1 := s.clearProposal.onSpu (fun u => { u with observed := none })
    let s2 := s1.applyCommit img
      { target := s.spu.cue + 1, proposer := img.station, how := .autoGo, forced := false,
        observed := false }
    match s.spu.proposal with
    | some (.call h) => s2.callDropped img .spuDrop h.proposer 1 0
    | _ => s2
  else s

/-! ## The judgement of a CALL (R69) -/

/-- What settles a CALL (R69). -/
inductive CallVerdict where
  | dissent
  | noChange
  | dropObserved
  | observe (suspect : Bool)
  | pend
  deriving DecidableEq, Repr

/-- R69 checks 1 to 4: the verdict, if one of them settles the CALL. -/
def Spu.earlyVerdict (u : Spu) (f : CallFields) : Option CallVerdict :=
  if u.showState = .stopped ∨ u.showState = .standby ∨ u.showState = .countin then some .dissent
  else if f.target = u.cue ∧ u.lastTransition.map Prod.fst = some f.base then some .noChange
  else
    match u.proposal, u.armed with
    | some (.call h), _ => some (if h.call = f then .noChange else .dissent)
    | _, some a => some (if a.call = f then .noChange else .dissent)
    | _, none =>
      match u.observed with
      | some h => some (if h.call = f then .noChange else .dropObserved)
      | none => none

/-- R69 checks 5 to 9, against the CALL window as the earlier arrivals left it. -/
def Spu.lateVerdict (u : Spu) (img : Image) (source : Bool) (f : CallFields) : CallVerdict :=
  if u.suspect && !source then .observe false
  else if f.base ≠ u.cue then (if source then .dissent else .observe true)
  else if f.target = 0 ∨ img.cueCount ≤ f.target ∨ f.target = f.base then .dissent
  else if u.callWindow ≠ none ∧ u.callWindow ≠ some f then .dissent
  else .pend

/-- R69: the verdict on a CALL. -/
def Spu.verdict (u : Spu) (img : Image) (source : Bool) (f : CallFields) : CallVerdict :=
  match u.earlyVerdict f with
  | some v => v
  | none => u.lateVerdict img source f

/-- R69: the CALL window records the first CALL of each window that reaches check 5. -/
def Spu.recordCall (u : Spu) (f : CallFields) : Spu :=
  match u.earlyVerdict f with
  | some _ => u
  | none => { u with callWindow := some (u.callWindow.getD f) }

/-- R70: a CALL becomes the pending proposal, and its target is handed to PSQ. -/
def State.pendCall (img : Image) (sender : Nat) (f : CallFields) (s : State) : State :=
  (s.onSpu (fun u =>
    { u with
      proposal := some (.call { proposer := sender, call := f, patience := img.patience }) })).onPsq
    (fun q => q.handTarget { target := f.target, kind := .call } s.spu.cue)

/-- R80: the station marks its own CALL awaiting verdict. -/
def Spu.awaitCall (u : Spu) (own : Bool) : Spu := if own then { u with awaitingCall := true } else u

/-- R68 to R72: the arrival of a CALL. -/
def State.takeCall (img : Image) (sender : Nat) (f : CallFields) (s : State) : State :=
  let own := sender == img.station
  let s1 := s.onSpu (fun u => u.recordCall f)
  match s.spu.verdict img (s.isSource img) f with
  | .dissent => s1.onSpu (fun u => { u with dissent := true }.awaitCall own)
  | .noChange => s1
  | .dropObserved => s1.onSpu (fun u => { u with observed := none }.awaitCall own)
  | .observe suspect =>
    s1.onSpu (fun u =>
      let u1 := if suspect then u.setSuspect else u
      { u1 with observed := some { proposer := sender, call := f, patience := img.patience } })
  | .pend => s1.pendCall img sender f

/-! ## GO requests (R67) -/

/-- R67: a GO request is refused. -/
def State.refusesGo (img : Image) (s : State) : Bool :=
  !img.roles.caller || s.le.localRunning ||
    !(s.spu.showState == .preshow || s.spu.showState == .run)

/-- R67: the CALL made and submitted. -/
def State.submitCall (f : CallFields) (s : State) : State :=
  s.onLe (fun l => l.submitReplacing (.call f))

/-- GO_PRESS (R67, R195): base the current cue, target the next, "when" the station's default. A refused
press is discarded. -/
def execGoPress (s : State) (released : Bool := true) : Host.Outcome State Fault Refusal :=
  withPress .go released s (fun img s1 =>
    if s1.refusesGo img then s1
    else
      s1.submitCall
        { base := s1.spu.cue, target := s1.spu.cue + 1, downbeat := img.goDownbeat })

end Sys2Proof.Machine
end

