-- ==== Sys2Proof/Machine/Resume.lean ====
section
/-! DEFINITION. Machine/Resume.lean: the RESUME protocol (Chapter 8, 8.5 and 8.6): the judgement of a RESUME, its
decision, the resume commit and the end of a count-in. -/

namespace Sys2Proof.Machine

/-! ## The judgement of a RESUME (R173) -/

/-- What settles a RESUME (R173). -/
inductive ResumeVerdict where
  | dissent
  | noChange
  | pend
  deriving DecidableEq, Repr

/-- R173 checks 1 and 2: the verdict, if one of them settles the RESUME. -/
def Spu.earlyResume (u : Spu) (f : ResumeFields) : Option ResumeVerdict :=
  if u.showState ≠ .standby then some .dissent
  else
    match u.proposal with
    | some (.resume h) => some (if h.resume = f then .noChange else .dissent)
    | _ => none

/-- R173 checks 3 to 6, against the RESUME window as the earlier arrivals left it. -/
def Spu.lateResume (u : Spu) (img : Image) (f : ResumeFields) : ResumeVerdict :=
  if img.cueCount ≤ f.cue ∨ img.resumeSafe f.cue = false then .dissent
  else if f.bar ≠ 0 ∧ img.inBars f.cue f.bar = false then .dissent
  else if u.resumeWindow ≠ none ∧ u.resumeWindow ≠ some f then .dissent
  else .pend

/-- R173: the verdict on a RESUME. -/
def Spu.resumeVerdict (u : Spu) (img : Image) (f : ResumeFields) : ResumeVerdict :=
  match u.earlyResume f with
  | some v => v
  | none => u.lateResume img f

/-- R173: the RESUME window records the first RESUME of each window that reaches check 3. -/
def Spu.recordResume (u : Spu) (f : ResumeFields) : Spu :=
  match u.earlyResume f with
  | some _ => u
  | none => { u with resumeWindow := some (u.resumeWindow.getD f) }

/-- R174: a RESUME becomes the pending RESUME, and its restart cue is handed to PSQ. -/
def State.pendResume (img : Image) (sender : Nat) (f : ResumeFields) (s : State) : State :=
  (s.onSpu (fun u =>
    { u with
      proposal :=
        some (.resume { proposer := sender, resume := f, patience := img.resumePatience }) })).onPsq
    (fun q => q.handTarget { target := f.cue, kind := .resume } s.spu.cue)

/-- R71, R176: a dissent to a RESUME, which marks the station's own RESUME awaiting verdict. -/
def Spu.dissentResume (u : Spu) (own : Bool) : Spu :=
  { u with dissent := true, awaitingResume := u.awaitingResume || own }

/-- R173, R174: the arrival of a RESUME. -/
def State.takeResume (img : Image) (sender : Nat) (f : ResumeFields) (s : State) : State :=
  let s1 := s.onSpu (fun u => u.recordResume f)
  match s.spu.resumeVerdict img f with
  | .dissent => s1.onSpu (fun u => u.dissentResume (sender == img.station))
  | .noChange => s1
  | .pend => s1.pendResume img sender f

/-! ## The resume commit (R177, R178) -/

/-- R177: the snapshot when it matches the restart cue. -/
def Spu.matching (u : Spu) (cue : Nat) : Option Snapshot := u.snapshot.filter (fun x => x.cue == cue)

/-- R177: the restart bar. -/
def State.restartBar (img : Image) (f : ResumeFields) (s : State) : Nat :=
  if f.bar ≠ 0 then f.bar
  else
    match s.spu.matching f.cue with
    | some x => x.bar
    | none => img.startBar f.cue

/-- R177: the start tempo without a restore: the ramp target past the start bar of a cue with a ramp, else
the click tempo; in a FREE cue it is not read. -/
def writtenTempo (img : Image) (cue bar current : Nat) : Nat :=
  match img.clickOf cue with
  | some part =>
    match part.ramp with
    | some r => if bar ≠ img.startBar cue then r.target else part.tempo
    | none => part.tempo
  | none => current

/-- R177: a bar lies within the vamp bars of a cue. -/
def barInVamp (img : Image) (cue bar : Nat) : Bool :=
  match img.clickOf cue with
  | some part =>
    match part.vamp with
    | some v => vampCovers v bar
    | none => false
  | none => false

/-- R177: the restart position and the restore of a RESUME. -/
def State.restartOf (img : Image) (f : ResumeFields) (s : State) : ResumeStart :=
  let bar := s.restartBar img f
  let snap := s.spu.matching f.cue
  let timed := if f.mask.tempo then snap else none
  { cue := f.cue, bar := bar, countIn := f.countIn,
    tempo := (match timed with
      | some x => x.tempo
      | none => writtenTempo img f.cue bar s.cke.tempo)
    override := timed.bind Snapshot.tempoOverride
    pass := if f.mask.vamp && barInVamp img f.cue bar then snap.bind Snapshot.vamp else none }

/-- R177: the camera override of the restore. -/
def Spu.restoredCamera (u : Spu) (f : ResumeFields) : Option Source :=
  if f.mask.camera then u.snapshot.bind Snapshot.cameraOverride else none

/-- R178: a resume commit enters COUNTIN: the count-in is above 0 and the restart cue has a click part. -/
def ResumeFields.counts (f : ResumeFields) (img : Image) : Bool :=
  decide (0 < f.countIn) && !img.isFree f.cue

/-- R178: SPU's record at a resume commit. -/
def Spu.resumed (u : Spu) (img : Image) (f : ResumeFields) (r : ResumeStart) : Spu :=
  { u with
    cue := f.cue, showState := if f.counts img then .countin else .run,
    launchPending := !img.isFree f.cue, late := false, lastTransition := none, proposal := none,
    restart := if f.counts img then some { bar := r.bar, pass := r.pass } else none,
    snapshot := none, origin := [] }

/-- R178, R156: the hand-offs of a resume commit: resume start, recall fire, camera restore. -/
def State.handResume (img : Image) (r : ResumeStart) (camera : Option Source) (s : State) : State :=
  let s1 := s.onCke (fun k => k.resumeStart img r)
  let s2 := s1.fireRequest img .recall r.cue
  (s2.onVsl (fun v => { v with override := camera })).handVideo img

/-- R176, R178: a resume commit. -/
def State.resumeCommit (img : Image) (h : HeldResume) (s : State) : State :=
  let r := s.restartOf img h.resume
  let camera := s.spu.restoredCamera h.resume
  let s1 := (s.onSpu (fun u => u.resumed img h.resume r)).onPsq Psq.withdraw
  (s1.post .spu .resume h.proposer 1 h.resume.countIn).handResume img r camera

/-- R175, R176: the decision of a pending RESUME at a clean vote field without STOP. -/
def State.decideResume (img : Image) (seen : Contributions) (h : HeldResume) (s : State) : State :=
  if seen.dissent then s.clearProposal.resumeDropped img .spu h.proposer 2
  else if seen.notReady then
    if 0 < h.patience then
      s.onSpu (fun u =>
        { u with proposal := some (.resume { h with patience := h.patience - 1 }) })
    else s.clearProposal.post .spu .resumeTimeout h.proposer (bit s.le.sampled.notReady) 0
  else s.resumeCommit img h

/-- R179: the count-in completion: a station in COUNTIN enters RUN; in another show state it is ignored. -/
def State.countInComplete (img : Image) (s : State) : State :=
  if s.spu.showState = .countin then
    (s.onSpu (fun u => { u with showState := .run, restart := none })).handVideo img
  else s

end Sys2Proof.Machine
end

