-- ==== Sys2Proof/Machine/CatchUp.lean ====
section
/-! DEFINITION. Machine/CatchUp.lean: catch-up (Chapter 9): the TALLY test, adoption in its four forms, the
reference wait, and what the start of local running drops. -/

namespace Sys2Proof.Machine

/-! ## The test of a TALLY (R182, R186) -/

/-- R182, R186: the station tests this TALLY: from the beat source as last handed, or, at a suspect beat
source, from any other station; never one whose suspect bit is set. -/
def State.testsTally (img : Image) (sender : Nat) (f : TallyFields) (s : State) : Bool :=
  !f.suspect &&
    (if s.isSource img then s.spu.suspect && sender != img.station
     else s.le.beatSource == some sender)

/-- R182: the test passes. CKE's bar and beat are taken as they read (R129). -/
def State.tallyDiffers (img : Image) (f : TallyFields) (s : State) : Bool :=
  s.spu.suspect || f.cue != s.spu.cue || f.bar != s.shownBar img || f.beat != s.shownBeat img ||
    f.showState != s.spu.showState

/-- The outcomes of R182. -/
inductive Adoption where
  | noAdoption
  | beatAlone
  | positionAndState
  | outOfStop
  | inStop (enter standby : Bool)
  deriving DecidableEq, Repr

/-- R182: the outcome for a TALLY in PRESHOW or RUN. -/
def Spu.adoptPlaying (u : Spu) : Adoption :=
  match u.showState with
  | .preshow | .run | .countin => .positionAndState
  | .stopped => if u.ownStop then .inStop false false else .outOfStop
  | .standby => .outOfStop

/-- R182: the outcome for a TALLY in STOPPED. -/
def Spu.adoptStopped (u : Spu) : Adoption :=
  match u.showState with
  | .preshow | .run | .countin | .standby => .inStop true false
  | .stopped => .inStop false false

/-- R182: the outcome for a TALLY in STANDBY. At a station in STANDBY the model follows the table, position
alone, and not the entry to STOPPED that R184's text would make first (log entry 63). -/
def Spu.adoptStandby (u : Spu) : Adoption :=
  match u.showState with
  | .preshow | .run | .countin => .inStop true true
  | .stopped => .inStop false (!u.ownStop)
  | .standby => .inStop false false

/-- R182: the outcome for a TALLY in COUNTIN. -/
def State.adoptCountIn (img : Image) (f : TallyFields) (s : State) : Adoption :=
  if s.spu.showState = .countin ∧ f.cue = s.spu.cue ∧ f.bar = s.shownBar img then .beatAlone
  else .noAdoption

/-- R182: the table. -/
def State.adoption (img : Image) (f : TallyFields) (s : State) : Adoption :=
  match f.showState with
  | .preshow | .run => s.spu.adoptPlaying
  | .countin => s.adoptCountIn img f
  | .stopped => s.spu.adoptStopped
  | .standby => s.spu.adoptStandby

/-! ## Adoption (R183 to R185) -/

/-- The beat source as last handed, which an adoption's notice names (R183, R184; log entry 28). -/
def State.adoptedFrom (img : Image) (s : State) : Nat := s.le.beatSource.getD img.station

/-- R183: the adopted position differs from the station's own. -/
def State.positionDiffers (img : Image) (f : TallyFields) (s : State) : Bool :=
  f.cue != s.spu.cue || f.bar != s.shownBar img || f.beat != s.shownBeat img ||
    f.vampActive != s.cke.vamp.isSome || f.pass != s.cke.pass

/-- The cue index of a TALLY is taken; a change makes the last transition absent (R183 to R185). -/
def Spu.takeCue (u : Spu) (cue : Nat) : Spu :=
  if cue = u.cue then u else { u with cue := cue, lastTransition := none }

/-- R183 step 1: at a change of cue index the armed GO, the pending and the observed CALL are dropped. -/
def Spu.dropForCue (u : Spu) (cue : Nat) : Spu :=
  if cue = u.cue then u else { u with armed := none, proposal := none, observed := none }

/-- R183 steps 1 to 3: SPU's record. -/
def Spu.adoptRunning (u : Spu) (f : TallyFields) : Spu :=
  { (u.dropForCue f.cue).takeCue f.cue with
    showState := f.showState, restart := none, launchPending := false }

/-- The notice of an adoption (R183 step 7). -/
def State.postAdoption (img : Image) (s : State) : State :=
  s.post .spu .cue (s.adoptedFrom img) 4 0

/-- R183: an adoption of position and state, in the rule's order: the video stop test (R155) comes before the
recall fire and the notice. At an equal position CKE is handed nothing: a launch marker that a COUNTIN
station has standing, and the pass its resume start handed, stand too (log entry 59). -/
def State.adoptPosition (img : Image) (f : TallyFields) (s : State) : State :=
  let newCue := f.cue != s.spu.cue
  let changed := newCue || f.showState != s.spu.showState
  let s1 := s.onSpu (fun u => (u.adoptRunning f).clearSuspect)
  let s2 := if newCue then s1.onPsq Psq.withdraw else s1
  let s3 := s2.onCke (fun k => { k with countIn := none })
  let s4 := if s.positionDiffers img f then s3.onCke (fun k => k.adopt img newCue f) else s3
  let s5 := if changed then (s4.handVideo img).videoStop img s else s4
  let s6 := if newCue || s.spu.restartRecall then s5.fireRequest img .recall f.cue else s5
  if changed then s6.postAdoption img else s6

/-- R184: the snapshot takes the TALLY's position; without one, one is made. -/
def State.adoptSnapshot (f : TallyFields) (s : State) : State :=
  let base : Snapshot :=
    match s.spu.snapshot with
    | some x => x
    | none =>
      { cue := f.cue, bar := f.bar, beat := f.beat, vamp := none, tempo := s.cke.tempo,
        tempoOverride := s.cke.override, cameraOverride := s.vsl.override }
  s.onSpu (fun u =>
    { u with
      snapshot := some { base with
        cue := f.cue, bar := f.bar, beat := f.beat,
        vamp := if f.vampActive then some f.pass else none } })

/-- R184: the position of a TALLY in the stop states. VSL is handed the cue index and show state when either
changed (R146); entered: the adoption has just entered STOPPED, so that the show state has. -/
def State.adoptStopPosition (img : Image) (entered : Bool) (f : TallyFields) (s : State) : State :=
  let newCue := f.cue != s.spu.cue
  let s1 := s.onSpu (fun u => (u.takeCue f.cue).clearSuspect)
  let s2 := (s1.onCke (fun k => k.adopt img newCue f)).adoptSnapshot f
  if newCue || entered then s2.handVideo img else s2

/-- R184: an adoption in the stop states: entry to STOPPED, position, entry to STANDBY. -/
def State.adoptInStop (img : Image) (f : TallyFields) (enter standby : Bool) (s : State) : State :=
  let s1 := if enter then s.enterStopped img 5 (s.adoptedFrom img) 0 else s
  let s2 := s1.adoptStopPosition img enter f
  if standby && !s2.spu.ownStop then s2.enterStandby img else s2

/-- R185: SPU's record at an adoption out of the stop states. -/
def Spu.adoptOut (u : Spu) (f : TallyFields) : Spu :=
  { u.takeCue f.cue with
    showState := f.showState, proposal := none, snapshot := none, origin := [], restart := none,
    launchPending := false }

/-- R185: an adoption out of the stop states. -/
def State.adoptOutOfStop (img : Image) (f : TallyFields) (s : State) : State :=
  let newCue := f.cue != s.spu.cue
  let s1 := (s.onSpu (fun u => (u.adoptOut f).clearSuspect)).onPsq Psq.withdraw
  let s2 := s1.onCke (fun k => k.adopt img newCue f)
  ((s2.handVideo img).fireRequest img .recall f.cue).postAdoption img

/-- R182: a station in COUNTIN hands CKE the TALLY's beat as its count-in beat. -/
def State.adoptBeat (f : TallyFields) (s : State) : State :=
  (s.onSpu Spu.clearSuspect).onCke (fun k => { k with beat := k.clampBeat f.beat })

/-- R182 to R186: the arrival of a TALLY at SPU. -/
def State.takeTally (img : Image) (sender : Nat) (f : TallyFields) (s : State) : State :=
  if s.testsTally img sender f && s.tallyDiffers img f then
    match s.adoption img f with
    | .noAdoption => s
    | .beatAlone => s.adoptBeat f
    | .positionAndState => s.adoptPosition img f
    | .outOfStop => s.adoptOutOfStop img f
    | .inStop enter standby => s.adoptInStop img f enter standby
  else s

/-! ## The reference wait (R186) -/

/-- R186: the reference wait at a clean vote field complete of the line. joined: LE is JOINED; alone: the
presence map holds the station alone. -/
def Spu.waitReference (u : Spu) (joined alone : Bool) : Spu :=
  if joined && u.suspect then
    if alone || decide (8 ≤ u.refWait + 1) then u.clearSuspect
    else { u with refWait := u.refWait + 1 }
  else u

/-- R186: the reference wait of the station: another station handed returns it to 0. -/
def State.referenceWait (img : Image) (s : State) : State :=
  if s.isSource img then
    s.onSpu (fun u =>
      u.waitReference (s.le.state == .joined) (s.le.thisMap == stationSet img.station))
  else if s.le.beatSource.isSome then s.onSpu (fun u => { u with refWait := 0 })
  else s

/-! ## Local running (R187) -/

/-- R187: at the start of local running the pending and observed proposals are dropped without a notice. -/
def State.dropForLocal (s : State) : State :=
  s.clearProposal.onSpu (fun u => { u with observed := none })

end Sys2Proof.Machine
end

