-- ==== Sys2Proof/Machine/Messages.lean ====
section
/-! DEFINITION. Machine/Messages.lean: the checks of a decoded message and its arrival (R53 to R55), and the
meanings of MALFORMED_MESSAGE and the six arrivals. -/

namespace Sys2Proof.Machine

/-! ## Checks (R53, R54) -/

/-- R34, R55: LE takes characters and messages from the line for the blocks: in JOINED, and in LISTEN
without local running. -/
def Le.takesLine (l : Le) : Bool := l.state == .joined || (l.state == .listen && !l.localRunning)

/-- R54 check 1: a message with the station's own number is accepted only when a send of this slot
completed; one still at its end counts as completed (log entry 16). -/
def State.passesOwn (img : Image) (sender : Nat) (s : State) : Bool :=
  sender != img.station || s.le.sentInSlot || s.le.send.isSome

/-- R53, R54: the message the decoder completed, when its fields and its number pass. -/
def State.checked (img : Image) (s : State) : Option (Nat × Message) :=
  match s.le.received with
  | some raw =>
    if s.passesOwn img raw.sender then
      (raw.parse img.cueCount).map (fun m => (raw.sender, m))
    else none
  | none => none

/-- The completed message has been taken. -/
def State.dropReceived (s : State) : State := s.onLe (fun l => { l with received := none })

/-- The message that arrives now, of a kind (log entry 15). -/
def State.arriving (img : Image) (kind : MessageKind) (s : State) : Option (Nat × Message) :=
  match s.checked img with
  | some x => if s.le.takesLine && x.2.kind == kind then some x else none
  | none => none

/-- R54 checks 2 and 3: the sender lacks the role the kind asks for. -/
def refusesSender (img : Image) (kind : MessageKind) (sender : Nat) : Bool :=
  match kind with
  | .call | .resume => !img.isCallerStation sender
  | .tempo => !img.isRanked sender
  | .tally | .halt | .camera => false

/-- R54: the IGNORED notice. -/
def State.postIgnored (kind : MessageKind) (sender : Nat) (s : State) : State :=
  s.post .con .ignored sender kind.code 0

/-! ## Arrival at the blocks (R55) -/

/-- R54 check 4: a show id that differs, from a sender new to the mismatch set. -/
def State.checkShowId (img : Image) (sender : Nat) (f : TallyFields) (s : State) : State :=
  if f.showId ≠ img.showId.toNat ∧ s.le.mismatch.getLsbD sender = false then
    (s.onLe (fun l => { l with mismatch := l.mismatch ||| stationSet sender })).post .con .showMismatch
      sender (f.showId / 256) (f.showId % 256)
  else s

/-- R54, R182: a TALLY reaches SPU. -/
def State.receiveTally (img : Image) (sender : Nat) (f : TallyFields) (s : State) : State :=
  (s.checkShowId img sender f).takeTally img sender f

/-- R54, R69: a CALL reaches SPU, from a caller. -/
def State.receiveCall (img : Image) (sender : Nat) (f : CallFields) (s : State) : State :=
  if refusesSender img .call sender then s.postIgnored .call sender else s.takeCall img sender f

/-- R54, R173: a RESUME reaches SPU, from a caller. -/
def State.receiveResume (img : Image) (sender : Nat) (f : ResumeFields) (s : State) : State :=
  if refusesSender img .resume sender then s.postIgnored .resume sender
  else s.takeResume img sender f

/-- R164: the HALT's sender joins the stop origin list once. -/
def Spu.addOrigin (u : Spu) (sender : Nat) : Spu :=
  if u.origin.contains sender then u else { u with origin := u.origin ++ [sender] }

/-- R163, R164, R167: a HALT reaches SPU: it enters STOPPED, or in STOPPED a new origin posts STOP. -/
def State.receiveHalt (img : Image) (sender : Nat) (f : HaltFields) (s : State) : State :=
  let s1 := s.onSpu (fun u => u.addOrigin sender)
  if s.spu.showState = .stopped then
    if s.spu.origin.contains sender then s1 else s1.post .spu .stop sender 2 f.reason.code
  else s1.enterStopped img 2 sender f.reason.code

/-- R54, R130: a TEMPO reaches CKE, from a ranked station. -/
def State.receiveTempo (img : Image) (sender : Nat) (f : TempoFields) (s : State) : State :=
  if refusesSender img .tempo sender then s.postIgnored .tempo sender
  else s.onCke (fun k => k.takeTempo f s.now)

/-- R55: a message arrives at the block that owns its effect. -/
def State.receive (img : Image) (sender : Nat) (m : Message) (s : State) : State :=
  match m with
  | .tally f => s.receiveTally img sender f
  | .call f => s.receiveCall img sender f
  | .tempo f => s.receiveTempo img sender f
  | .halt f => s.receiveHalt img sender f
  | .resume f => s.receiveResume img sender f
  | .camera x => s.takeCamera img x

/-- R44, R55: a message taken as sent in local running passes R53 and R54 and arrives. -/
def State.receiveLocal (img : Image) (m : Message) (s : State) : State :=
  match (m.raw img.station).parse img.cueCount with
  | some x => s.receive img img.station x
  | none => s.onLe (fun l => { l with badCount := bump l.badCount })

/-! ## Meanings -/

/-- MALFORMED_MESSAGE (R53, R54): a message whose fields or whose number fail is discarded and counted. -/
def execMalformedMessage (s : State) : Host.Outcome State Fault Refusal :=
  withImage s (fun img =>
    if s.le.takesLine && s.le.received.isSome && (s.checked img).isNone then
      s.onLe (fun l => { l with badCount := bump l.badCount, received := none })
    else s)

/-- TALLY_ARRIVAL (R54, R182). -/
def execTallyArrival (s : State) : Host.Outcome State Fault Refusal :=
  withImage s (fun img =>
    match s.arriving img .tally with
    | some (sender, .tally f) => (s.dropReceived.receiveTally img sender f).conclude img s
    | _ => s)

/-- CALL_ARRIVAL (R54, R68 to R72). -/
def execCallArrival (s : State) : Host.Outcome State Fault Refusal :=
  withImage s (fun img =>
    match s.arriving img .call with
    | some (sender, .call f) => (s.dropReceived.receiveCall img sender f).conclude img s
    | _ => s)

/-- RESUME_ARRIVAL (R54, R173, R174). -/
def execResumeArrival (s : State) : Host.Outcome State Fault Refusal :=
  withImage s (fun img =>
    match s.arriving img .resume with
    | some (sender, .resume f) => (s.dropReceived.receiveResume img sender f).conclude img s
    | _ => s)

/-- HALT_ARRIVAL (R163, R164, R167). -/
def execHaltArrival (s : State) : Host.Outcome State Fault Refusal :=
  withImage s (fun img =>
    match s.arriving img .halt with
    | some (sender, .halt f) => (s.dropReceived.receiveHalt img sender f).conclude img s
    | _ => s)

/-- TEMPO_ARRIVAL (R54, R130). -/
def execTempoArrival (s : State) : Host.Outcome State Fault Refusal :=
  withImage s (fun img =>
    match s.arriving img .tempo with
    | some (sender, .tempo f) => (s.dropReceived.receiveTempo img sender f).conclude img s
    | _ => s)

/-- CAMERA_ARRIVAL (R145, R146). -/
def execCameraArrival (s : State) : Host.Outcome State Fault Refusal :=
  withImage s (fun img =>
    match s.arriving img .camera with
    | some (_, .camera x) => (s.dropReceived.takeCamera img x).conclude img s
    | _ => s)

end Sys2Proof.Machine
end

