-- ==== Sys2Proof/Machine/Results.lean ====
section
/-! DEFINITION. Machine/Results.lean: what LE hands the blocks at a vote field complete (R29, R30, R44) and what
they do with it: the count, its reports, the lamp, the vote, the auto-GO match (log entry 17). -/

namespace Sys2Proof.Machine

/-! ## The count and its reports (R122) -/

/-- A beat is counted in a round with this opening edge. -/
def State.countBeat (img : Image) (downbeat : Bool) (edge : Nat) (s : State) : State × Reports :=
  let x := s.cke.count img (s.spu.showState == .run) downbeat (edge + img.charTime)
    (edge + 5 * img.charTime)
  ({ s with cke := x.1 }, x.2)

/-- R122: a result is counted while the click runs when it carries BEAT and not STOP. -/
def State.countResult (img : Image) (seen : Contributions) (edge : Nat) (s : State) : State × Reports :=
  if s.clickRuns && seen.beat && !seen.stop then s.countBeat img seen.downbeat edge
  else (s, Reports.quiet)

/-- R122: in a blind round a station that drove BEAT counts what it drove. -/
def State.countDriven (img : Image) (drove : Bool) (edge : Nat) (s : State) : State × Reports :=
  if s.clickRuns && drove && s.le.sampled.beat then s.countBeat img s.le.sampled.downbeat edge
  else (s, Reports.quiet)

/-- R88, R123: the launch report clears launch pending. -/
def Spu.launchReport (u : Spu) : Spu := { u with launchPending := false }

/-- R122 step 5: the launch report, the armed downbeat, the count-in completion, in this order. -/
def State.takeReports (img : Image) (r : Reports) (s : State) : State :=
  let s1 := if r.launch then s.onSpu Spu.launchReport else s
  let s2 := if r.armed then s1.armedDownbeat img else s1
  if r.countIn then s2.countInComplete img else s2

/-- R84: the compare match, after the vote decision. -/
def State.takeMatch (img : Image) (r : Reports) (s : State) : State :=
  match r.matched with
  | some c => s.autoGo img c
  | none => s

/-! ## The vote (R73, R80, R81, R163, R170, R175, R176, R196) -/

/-- R196: CALL_LAMP at an SM station. -/
def State.lightLamp (img : Image) (attend : Bool) (s : State) : State :=
  if img.roles.sm then s.onCon (fun c => { c with lamp := attend }) else s

/-- R80, R176: the station's own CALL or RESUME awaiting verdict is reported, and both marks are cleared. R80
and R176 give a reason for DISSENT and one for STOP and no order; on a vote field with both the model reports
STOP, 2 for the CALL and 3 for the RESUME (log entry 55). -/
def State.reportAwaiting (img : Image) (seen : Contributions) (s : State) : State :=
  let s1 :=
    if s.spu.awaitingCall && (seen.stop || seen.dissent) then
      s.callDropped img .spu img.station (if seen.stop then 2 else 1) 0
    else s
  let s2 :=
    if s.spu.awaitingResume && (seen.stop || seen.dissent) then
      s1.resumeDropped img .spu img.station (if seen.stop then 3 else 2)
    else s1
  s2.onSpu (fun u => { u with awaitingCall := false, awaitingResume := false })

/-- R73, R81, R175: the decision of the proposal held, at a vote field without STOP. -/
def State.decideProposal (img : Image) (seen : Contributions) (s : State) : State :=
  match s.spu.proposal, s.spu.observed with
  | some (.call h), _ => s.decideCall img seen h
  | some (.resume h), _ => s.decideResume img seen h
  | none, some h => s.decideObserved img seen h
  | none, none => s

/-- R163, R170, R73, R81, R175: what a clean vote field does to the show. -/
def State.decideVote (img : Image) (seen : Contributions) (s : State) : State :=
  if seen.stop then s.enterStopped img 4 img.station 0
  else if s.spu.showState = .stopped then (if s.spu.ownStop then s else s.enterStandby img)
  else s.decideProposal img seen

/-- R69, R71, R173: a vote field complete withdraws DISSENT and empties the windows. -/
def Spu.closeWindow (u : Spu) : Spu :=
  { u with dissent := false, callWindow := none, resumeWindow := none }

/-! ## Handing on (R29, R30, R44) -/

/-- R29: the blocks take a clean result of the line. -/
def State.handResult (img : Image) (seen : Contributions) (edge : Nat) (s : State) : State :=
  let x := s.countResult img seen edge
  let s1 := (x.1.onCke Cke.withdrawSampled).takeReports img x.2
  let s2 := (s1.takePitCamfail img seen.camfail).lightLamp img seen.attend
  let s3 := ((s2.reportAwaiting img seen).decideVote img seen).takeMatch img x.2
  (s3.onSpu Spu.closeWindow).referenceWait img

/-- R44: the blocks take a local result. -/
def State.handLocal (img : Image) (seen : Contributions) (edge : Nat) (s : State) : State :=
  let x := s.countResult img seen edge
  let s1 := (x.1.onCke Cke.withdrawSampled).takeReports img x.2
  let s2 := (s1.takePitCamfail img seen.camfail).lightLamp img seen.attend
  ((s2.decideVote img seen).takeMatch img x.2).onSpu Spu.closeWindow

/-- R30, R74: the blocks take a blind indication; drove: the station drove its vote field in the round. An armed
GO with the observed mark that the beat source's own DOWNBEAT takes into effect in the round clears the suspect
flag (R82), and the blind round sets it (R30): the manual gives no order, and the model leaves it set (log
entry 60). -/
def State.handBlind (img : Image) (drove : Bool) (edge : Nat) (s : State) : State :=
  let x := s.countDriven img drove edge
  let s1 := ((x.1.onCke Cke.withdrawSampled).takeReports img x.2).takeMatch img x.2
  s1.onSpu (fun u => u.closeWindow.setSuspect)

end Sys2Proof.Machine
end

