-- ==== Sys2Proof/Machine/Line.lean ====
section
/-! DEFINITION. Machine/Line.lean: the Line Engine (Chapter 2) with the message decoder and the sends of Chapter 3:
rounds, the vote field, LE states, breaks, talk slots, and the meanings of the line's commands. -/

namespace Sys2Proof.Machine

/-! ## Instants and levels -/

/-- R23: the end of position k of a round with this opening edge. -/
def positionEnd (img : Image) (edge k : Nat) : Nat := edge + k * img.charTime

/-- R23: the first position of a talk slot. -/
def slotStart (slot : Nat) : Nat := 6 + 12 * slot

/-- R39: a dominant bit was sampled: the line was not silent, and the silence count returns to 0. -/
def Le.sawDominant (l : Le) : Le := { l with dominantSeen := true, silenceCount := 0 }

/-- Sampled bit times reach the silence test. -/
def Le.sawBits (l : Le) (w : Samples) : Le := if w = 0 then l else l.sawDominant

/-- LE follows the line: in JOINED and in LISTEN, local running or not. -/
def Le.hearsLine (l : Le) : Bool := l.state == .joined || l.state == .listen

/-- A break is being driven at a later position (R35). -/
def Le.breakAfter (l : Le) (position : Nat) : Bool :=
  match l.breakDriving with
  | some p => decide (position < p)
  | none => false

/-- The break being driven at a position has ended (R35). -/
def Le.endBreak (l : Le) (position : Nat) : Le :=
  if l.breakDriving = some position then
    { l with breakDriving := none, drive := if l.drive = [breakBits] then [] else l.drive }
  else l

/-! ## Entering a state (R39, R42, R43, R46) -/

/-- R39: entry to LISTEN at an instant, without local running: the round timer is the joining timer. -/
def Le.enterListen (l : Le) (img : Image) (now : Nat) : Le :=
  { l with
    state := .listen, localRunning := false, hunting := true, cleanRun := 0, silenceCount := 0,
    roundTimer := some (now + img.roundTime), lastExpiry := none, listenTimer := none,
    lastListen := none, dominantSeen := false, round := none, localRound := none }

/-- R44, R45: entry to LISTEN from ISOLATED: local running goes on, the listen timer starts. -/
def Le.enterLocalListen (l : Le) (img : Image) (now : Nat) : Le :=
  { l with
    state := .listen, hunting := true, cleanRun := 0, silenceCount := 0,
    listenTimer := some (now + img.roundTime), lastListen := none, dominantSeen := false,
    round := none }

/-- R42: LE's record at an entry to JOINED. It ends a local round under way (R45). A beat due that the local round
has sampled stays posted: it is sampled and driven again at the next vote field start (log entry 62). -/
def Le.joinedRecord (l : Le) : Le :=
  { l with
    state := .joined, localRunning := false, readBackRun := 0, hunting := false,
    listenTimer := none, localRound := none }

/-- R42: entry to JOINED, with the cause of the LINE notice. -/
def State.enterJoined (img : Image) (cause : Nat) (s : State) : State :=
  ((s.onLe Le.joinedRecord).onSpu Spu.setSuspect).post .le .line img.station 2 cause

/-- R43: LE's record at an entry to ISOLATED at an instant. A local round under way at a return from a LISTEN
with local running goes on (log entry 53). -/
def Le.isolatedRecord (l : Le) (img : Image) (now : Nat) : Le :=
  { l with
    state := .isolated, localRunning := true, drive := [], breakPending := false,
    breakDriving := none, lineFaultCount := bump l.lineFaultCount, queue := [], waitingHalt := none,
    send := none, roundTimer := some (now + img.roundTime), isolationCount := 0, round := none,
    decoder := .idle, received := none, sentInSlot := false, listenTimer := none }

/-- R43, R187: entry to ISOLATED, with the cause of the LINE notice. -/
def State.enterIsolated (img : Image) (cause : Nat) (s : State) : State :=
  let s1 := s.onLe (fun l => l.isolatedRecord img s.now)
  if s.le.localRunning then s1
  else s1.dropForLocal.post .le .line img.station 1 cause

/-! ## Opening a round (R24, R25, R41) -/

/-- A round opened at an edge. -/
def Round.opened (edge : Nat) (own : Bool) (driven : Samples) : Round :=
  { edge := edge, own := own, stage := .opening, markGood := false, onPeriod := false,
    markDriven := driven, votesDriven := [], breaks := 0, readBackFailed := false, clean := false }

/-- R23, R35: the record of a break as a round opens at an edge: one being driven becomes the round's
position 1, and one whose character time has ended is driven no longer. -/
def Le.breakAtEdge (l : Le) (edge : Nat) : Option Nat := if l.breakNow edge then some 1 else none

/-- R24: an observed edge opens a round; a break being driven past position 41 becomes its position 1. -/
def Le.openObserved (l : Le) (edge : Nat) : Le :=
  { l with
    round := some { Round.opened edge false 0 with breaks := if l.breakNow edge then 2 else 0 }
    breakDriving := l.breakAtEdge edge, blind := false }

/-- R25, R41: the station drives a MARK at an expiry: round count plus 1; a break being driven there takes its
place (R35), and lasts from where it began. -/
def Le.openOwn (l : Le) (img : Image) (edge : Nat) : Le :=
  let mark := charBitsOf .mark (l.roundCount + 1)
  { l with
    round := some { Round.opened edge true mark with breaks := if l.breakNow edge then 2 else 0 }
    breakDriving := l.breakAtEdge edge
    drive := if l.breakNow edge then l.drive else [mark]
    driveFrom := if l.breakNow edge then l.driveFrom else edge, blind := false,
    roundTimer := some (edge + img.roundTime), lastExpiry := some edge }

/-- ROUND_OPENING (R24, R23): a dominant bit with no round in progress. -/
def execRoundOpening (t recessive : Nat) (s : State) : Host.Outcome State Fault Refusal :=
  withImage s (fun _ =>
    if s.le.hearsLine && s.le.round.isNone then
      (s.reach t).onLe (fun l =>
        if l.hunting && decide (recessive < Config.charBits) then l.sawDominant
        else l.sawDominant.openObserved t)
    else s)

/-! ## The joining test's timers (R25, R39, R41, R44, R45) -/

/-- R39: the silence count at an expiry of the joining timer. -/
def Le.countSilence (l : Le) (silent : Bool) : Le :=
  { l with
    silenceCount := if silent && !l.dominantSeen then l.silenceCount + 1 else 0
    dominantSeen := false }

/-- R41: the third silent expiry drives a MARK and joins. -/
def State.joinSilent (img : Image) (e : Nat) (s : State) : State :=
  ((s.onLe (fun l => { l with round := none })).enterJoined img 2).onLe (fun l => l.openOwn img e)

/-- R25: a round timer expiry in JOINED. -/
def Le.expireJoined (l : Le) (img : Image) (e : Nat) : Le :=
  match l.round with
  | some _ => { l with roundTimer := none, lastExpiry := some e }
  | none => l.openOwn img e

/-- R39: a round timer expiry in LISTEN without local running. R39 restarts the timer with no round in
progress; the model restarts it too while an opening not yet judged is in progress (log entry 52). -/
def State.expireListen (img : Image) (silent : Bool) (e : Nat) (s : State) : State :=
  let s1 := s.onLe (fun l =>
    { l.countSilence silent with roundTimer := some (e + img.roundTime), lastExpiry := some e })
  if 3 ≤ s1.le.silenceCount then s1.joinSilent img e else s1

/-- R44: a round timer expiry in local running opens a local round. -/
def Le.openLocal (l : Le) (img : Image) (e : Nat) : Le :=
  { l with
    roundTimer := some (e + img.roundTime), localRound := some { edge := e, stage := .opening },
    roundCount := l.roundCount + 1 }

/-- R44: in ISOLATED each local round adds 1 to the isolation count, and the 16th enters LISTEN. -/
def Le.countIsolation (l : Le) (img : Image) (e : Nat) : Le :=
  if l.state = .isolated then
    let l1 := { l with isolationCount := l.isolationCount + 1 }
    if 16 ≤ l1.isolationCount then l1.enterLocalListen img e else l1
  else l

/-- ROUND_TIMER_EXPIRY (R25, R39, R41, R44), at the pending expiry. -/
def execRoundTimerExpiry (silent : Bool) (s : State) : Host.Outcome State Fault Refusal :=
  withImage s (fun img =>
    match s.le.roundTimer with
    | some e =>
      let s1 := s.reach e
      let s2 :=
        if s.le.localRunning then s1.onLe (fun l => (l.openLocal img e).countIsolation img e)
        else
          match s.le.state with
          | .joined => s1.onLe (fun l => l.expireJoined img e)
          | .listen => s1.expireListen img silent e
          | .offline | .isolated => s1
      s2.conclude img s
    | none => s)

/-- LISTEN_TIMER_EXPIRY (R45, R41), at the pending expiry: as the round timer's in LISTEN, the restart with an
opening in progress included (log entry 52). -/
def execListenTimerExpiry (silent : Bool) (s : State) : Host.Outcome State Fault Refusal :=
  withImage s (fun img =>
    match s.le.listenTimer with
    | some e =>
      let s1 := (s.reach e).onLe (fun l =>
        { l.countSilence silent with
          listenTimer := some (e + img.roundTime), lastListen := some e })
      (if 3 ≤ s1.le.silenceCount then s1.joinSilent img e else s1).conclude img s
    | none => s)

/-! ## Mark seen (R26) -/

/-- Half a character time at most between two instants (R26). -/
def withinHalfChar (img : Image) (x y : Nat) : Bool :=
  decide (2 * (x - y) ≤ img.charTime ∧ 2 * (y - x) ≤ img.charTime)

/-- R26: the opening lies within half a character time of an expiry (log entry 10). -/
def nearExpiry (img : Image) (edge : Nat) (expiry : Option Nat) : Bool :=
  match expiry with
  | some e => withinHalfChar img edge e
  | none => false

/-- R26, R45: on period: the station's own MARK, or near an expiry of the joining timer. -/
def Le.onPeriod (l : Le) (img : Image) (r : Round) : Bool :=
  r.own ||
    (if l.localRunning then nearExpiry img r.edge l.lastListen || nearExpiry img r.edge l.listenTimer
     else nearExpiry img r.edge l.lastExpiry || nearExpiry img r.edge l.roundTimer)

/-- R35: what the station drove at position 1. -/
def Round.drivenMark (r : Round) : Samples := if r.breaks.getLsbD 1 then breakBits else r.markDriven

/-- R26: the joining timer runs P from the opening edge. -/
def Le.restartTimer (l : Le) (img : Image) (edge : Nat) : Le :=
  if l.localRunning then { l with listenTimer := some (edge + img.roundTime), dominantSeen := false }
  else { l with roundTimer := some (edge + img.roundTime), dominantSeen := false }

/-- R26: the round count: a MARK received good is adopted, else 1 is added. In local running the observed
round leaves the count to the local rounds (R44, R45; log entry 40). -/
def Le.markCount (l : Le) (mark : Option Byte) : Byte :=
  if l.localRunning then l.roundCount
  else
    match mark with
    | some d => d
    | none => l.roundCount + 1

/-- The data of a MARK received good. -/
def goodMark (c : Option Character) : Option Byte :=
  match c with
  | some ch => if ch.isGood .mark then some ch.data else none
  | none => none

/-- R26: hunting, a character received good of another kind withdraws the opening. -/
def Le.withdraws (l : Le) (c : Option Character) : Bool :=
  match c with
  | some ch => l.hunting && ch.error == none && ch.kind != .mark
  | none => false

/-- R26: an opening that stands. -/
def Le.markStands (l : Le) (img : Image) (r : Round) (w : Samples) (c : Option Character) : Le :=
  { (l.restartTimer img r.edge).endBreak 1 with
    hunting := false, drive := if l.breakAfter 1 then l.drive else [], roundCount := l.markCount (goodMark c)
    resync := resyncAfter l.resync c
    blind := l.blind || !((goodMark c).isSome && l.onPeriod img r)
    round := some { r with
      stage := .marked, markGood := (goodMark c).isSome, onPeriod := l.onPeriod img r,
      readBackFailed := readBackFails r.drivenMark w } }

/-- R26: a withdrawn opening: no round is in progress, and the timer keeps the timing it had. -/
def Le.markWithdrawn (l : Le) : Le := { l.sawDominant.endBreak 1 with round := none, drive := [] }

/-- MARK_SEEN (R26), at the end of position 1. -/
def execMarkSeen (w : Samples) (s : State) : Host.Outcome State Fault Refusal :=
  withImage s (fun img =>
    match s.le.round with
    | some r =>
      if r.stage = .opening && s.le.hearsLine then
        let c := takeChar s.le.resync w
        (s.reach (positionEnd img r.edge 1)).onLe (fun l =>
          if l.withdraws c then l.markWithdrawn else l.markStands img r w c)
      else s
    | none => s)

/-! ## The vote field (R27 to R30, R37, R40) -/

/-- The round with its stage moved on. -/
def Le.setStage (l : Le) (st : Stage) : Le :=
  { l with round := l.round.map (fun r => { r with stage := st }) }

/-- R27: the posted contributions are sampled, a beat due that a local round ended by joining had sampled among
them (log entry 62). -/
def State.sampleVote (s : State) : State :=
  (s.onLe (fun l => { l with sampled := s.contributions })).onCke
    (fun k => { k with dueSampled := k.beatPosted })

/-- R27: in JOINED the four vote characters are driven from the start of position 2, but for a break that starts at position 2 (R35). -/
def Le.driveVote (l : Le) (img : Image) (start : Nat) : Le :=
  if l.state = .joined then
    let votes := voteChars l.sampled img.station
    { l with
      drive := if l.breakDriving = some 2 then votes.set 0 breakBits else votes
      driveFrom := start
      round := l.round.map (fun r => { r with votesDriven := votes }) }
  else l

/-- VOTE_FIELD_START (R27), at the start of position 2. -/
def execVoteFieldStart (s : State) : Host.Outcome State Fault Refusal :=
  withImage s (fun img =>
    match s.le.round with
    | some r =>
      if r.stage = .marked && s.le.hearsLine then
        let s1 := (s.reach (positionEnd img r.edge 1)).onLe (fun l => l.setStage .voting)
        if s.le.localRunning then s1
        else s1.sampleVote.onLe (fun l => l.driveVote img (positionEnd img r.edge 1))
      else s
    | none => s)

/-- R35: what the station drove at position p of the vote field. -/
def Round.drivenVote (r : Round) (p : Nat) : Samples :=
  if r.breaks.getLsbD p then breakBits else r.votesDriven.getD (p - 2) 0

/-- R37: a driven dominant bit of positions 1 to 5 read back recessive. -/
def Round.failsReadBack (r : Round) (votes : List Samples) : Bool :=
  r.readBackFailed ||
    (List.range 4).any (fun k => readBackFails (r.drivenVote (k + 2)) (votes.getD k 0))

/-- R37: the station drove in positions 1 to 5 of the round. -/
def Round.drove (r : Round) : Bool := r.own || !r.votesDriven.isEmpty || r.breaks != 0

/-- A vote character taken and received good (R28). -/
def goodVote (c : Option Character) : Bool :=
  match c with
  | some ch => ch.isGood .vote
  | none => false

/-- The data of a taken character. -/
def dataOf (c : Option Character) : Byte :=
  match c with
  | some ch => ch.data
  | none => 0

/-- R28: the judgement of a round from the characters taken at positions 2 to 5. -/
def Round.judge (r : Round) (chars : List (Option Character)) : Bool :=
  r.markGood && r.onPeriod && chars.all goodVote && !(dataOf (chars.getD 0 none)).getLsbD 7

/-- R28: the presence map of the characters. -/
def mapOf (chars : List (Option Character)) : StationSet :=
  presenceMap (dataOf (chars.getD 1 none)) (dataOf (chars.getD 2 none)) (dataOf (chars.getD 3 none))

/-- R29, R31, R60: LE's record at a clean vote field complete whose results are handed on. -/
def Le.takeClean (l : Le) (img : Image) : Le :=
  { l with
    lastMap := l.thisMap, owners := slotOwners l.thisMap l.roundCount.toNat
    beatSource := img.reference l.thisMap }

/-- R28, R39: the round is judged; in LISTEN the clean run counts. -/
def Le.judged (l : Le) (r : Round) (clean : Bool) (chars : List (Option Character)) (resync : Bool) :
    Le :=
  { l with
    round := some { r with stage := .judged, clean := clean }, resync := resync
    drive := if l.breakAfter 5 then l.drive else []
    breakDriving := if l.breakAfter 5 then l.breakDriving else none
    blind := !clean
    thisMap := if clean then mapOf chars else l.thisMap
    cleanRun :=
      if l.state = .listen then (if clean then min 2 (l.cleanRun + 1) else 0) else l.cleanRun }

/-- R29, R30: LE hands the round to the blocks, where it takes the line. -/
def State.handRound (img : Image) (r : Round) (clean : Bool) (seen : Contributions) (s : State) :
    State :=
  if s.le.takesLine then
    if clean then (s.onLe (fun l => l.takeClean img)).handResult img seen r.edge
    else
      (s.onLe (fun l => { l with owners := [] })).handBlind img (!r.votesDriven.isEmpty) r.edge
  else s

/-- R37: the read-back failure run of a JOINED station that drove; the third failure is a line fault. -/
def State.countReadBack (img : Image) (drove failed : Bool) (s : State) : State :=
  if drove then
    let s1 := s.onLe (fun l => { l with readBackRun := if failed then l.readBackRun + 1 else 0 })
    if 3 ≤ s1.le.readBackRun then s1.enterIsolated img 1 else s1
  else s

/-- R40, R45: the second clean round joins; from local running the round in progress ends, and the round
timer takes the line's timing. -/
def State.joinClean (img : Image) (r : Round) (s : State) : State :=
  if s.le.localRunning then
    ((s.onLe (fun l =>
      { l with round := none, roundTimer := some (r.edge + img.roundTime) })).enterJoined img 1)
  else s.enterJoined img 1

/-- R37, R40: what follows the results by the LE state at the vote field complete. -/
def State.afterRound (img : Image) (r : Round) (failed : Bool) (before : LineState) (s : State) :
    State :=
  match before with
  | .joined => s.countReadBack img r.drove failed
  | .listen => if 2 ≤ s.le.cleanRun then s.joinClean img r else s
  | .offline | .isolated => s

/-- VOTE_FIELD_COMPLETE (R28 to R30, R37, R40), at the end of position 5. LE hands the results, with the video stop
that a hand-off of theirs raises (R155), and then changes its state (R40; log entry 13), so that a raise in the round
that joins is one in LISTEN (R161). -/
def execVoteFieldComplete (v0 v1 v2 v3 : Samples) (s : State) : Host.Outcome State Fault Refusal :=
  withImage s (fun img =>
    match s.le.round with
    | some r =>
      if r.stage = .voting && s.le.hearsLine then
        let votes := [v0, v1, v2, v3]
        let taken := takeChars s.le.resync 0 votes
        let clean := r.judge taken.1
        let s1 := (s.reach (positionEnd img r.edge 5)).onLe (fun l =>
          votes.foldl Le.sawBits (l.judged r clean taken.1 taken.2))
        let seen := Contributions.ofByte (dataOf (taken.1.getD 0 none))
        let s2 := (s1.handRound img r clean seen).videoStop img s
        (s2.afterRound img r (r.failsReadBack votes) s.le.state).conclude img s2
      else s
    | none => s)

/-! ## Local rounds (R44) -/

/-- The local round with its stage moved on. -/
def Le.setLocalStage (l : Le) (st : Stage) : Le :=
  { l with localRound := l.localRound.map (fun r => { r with stage := st }) }

/-- LOCAL_VOTE_FIELD_START (R44). -/
def execLocalVoteFieldStart (s : State) : Host.Outcome State Fault Refusal :=
  withImage s (fun img =>
    match s.le.localRound with
    | some r =>
      if r.stage = .opening && s.le.localRunning then
        ((s.reach (positionEnd img r.edge 1)).onLe (fun l => l.setLocalStage .voting)).sampleVote
      else s
    | none => s)

/-- R44: LE's record at a local vote field complete: the presence map holds the station alone, which owns all
three slots and is the beat source. It is the map of this and of the last round, as at a clean round of the
line (R29; log entry 12). -/
def Le.takeLocal (l : Le) (own : Nat) : Le :=
  { l.setLocalStage .judged with
    thisMap := stationSet own, lastMap := stationSet own
    owners := [own, own, own], beatSource := some own }

/-- LOCAL_VOTE_FIELD_COMPLETE (R44): a clean result of the station's own contributions. -/
def execLocalVoteFieldComplete (s : State) : Host.Outcome State Fault Refusal :=
  withImage s (fun img =>
    match s.le.localRound with
    | some r =>
      if r.stage = .voting && s.le.localRunning then
        let s1 := (s.reach (positionEnd img r.edge 5)).onLe (fun l => l.takeLocal img.station)
        (s1.handLocal img s.le.sampled r.edge).conclude img s
      else s
    | none => s)

/-- R44, R58: the head of the queue has been taken as sent. -/
def Le.dropHead (l : Le) : Le := { l with queue := l.queue.tail }

/-- LOCAL_TALK_SLOT_START (R44, R55): the head message is taken as sent and arrives. -/
def execLocalTalkSlotStart (slot : Fin 3) (s : State) : Host.Outcome State Fault Refusal :=
  withImage s (fun img =>
    match s.le.localRound with
    | some r =>
      if r.stage = .judged && s.le.localRunning then
        let s1 := s.reach (positionEnd img r.edge (slotStart slot.val - 1))
        (match s.le.queue with
          | e :: _ => (s1.onLe Le.dropHead).receiveLocal img e.message
          | [] => s1).conclude img s
      else s
    | none => s)

/-! ## Faults and breaks (R35, R36, R38) -/

/-- LINE_FAULT (R38, R43), at the 26th dominant bit: cause 2, a dominant line. -/
def execLineFault (t : Nat) (s : State) : Host.Outcome State Fault Refusal :=
  withImage s (fun img =>
    if s.le.hearsLine then ((s.reach t).enterIsolated img 2).conclude img s else s)

/-- R33, R58: a send fails: the clash count rises, and the entry stays. -/
def Le.failSend (l : Le) : Le := { l.settleSend false with clashCount := bump l.clashCount }

/-- R35: the send has a character at a position. -/
def Send.covers (x : Send) (position : Nat) : Bool :=
  decide (slotStart x.slot ≤ position ∧ position < slotStart x.slot + x.length)

/-- R35: a break driven in place of a character of the station's own message fails the send. -/
def Le.breakSend (l : Le) (position : Nat) : Le :=
  match l.send with
  | some x => if x.covers position then l.failSend else l
  | none => l

/-- R35: the position is one of the vote field under way. -/
def Le.inVoteField (l : Le) (position : Nat) : Bool :=
  match l.round with
  | some r => decide (r.stage = .voting ∧ 2 ≤ position ∧ position ≤ 5)
  | none => false

/-- R35: the round records a break driven in positions 1 to 5. -/
def Round.addBreak (r : Round) (position : Nat) : Round :=
  if position ≤ 5 then { r with breaks := r.breaks ||| BitVec.ofNat 6 (2 ^ position) } else r

/-- R35: the break is driven at a position from instant t on, for one character time: in place of the vote
character there, or by itself. -/
def Le.startBreak (l : Le) (img : Image) (t position : Nat) : Le :=
  let l1 := l.breakSend position
  { l1 with
    breakDriving := some position, breakUntil := t + img.charTime
    drive := if l.inVoteField position then l1.drive.set (position - 2) breakBits else [breakBits]
    driveFrom := if l.inVoteField position then l.driveFrom else t
    round := l1.round.map (fun r => r.addBreak position) }

/-- BREAK_START (R35), at a character boundary with a break pending, at its instant. -/
def execBreakStart (position : Nat) (before : Samples) (s : State) (t : Nat := 0) :
    Host.Outcome State Fault Refusal :=
  withImage s (fun img =>
    if s.le.state = .joined && s.le.breakPending then
      (s.reach t).onLe (fun l =>
        let l1 := { l with breakPending := false }
        if before = breakBits then l1 else l1.startBreak img (max s.now t) position)
    else s)

/-- R36, R22: a break seen at an instant: the receiver resynchronises. A break the station drives lasts its own
character time (R35): one whose time has ended is driven no longer; one that began inside the run of dominant
bits seen is still driven, and a further request merges into it; one that a warm reset finishes (R47) is finished
too. BREAK_SEEN and the CHARACTER_RECEIVED of the
position that held the break fall at the same bit; taken after this event, the decoder is handed no character
there (log entry 54). -/
def Le.seeBreak (l : Le) (now : Nat) : Le :=
  { l.sawDominant with
    resync := true
    breakDriving := if l.breakNow now then l.breakDriving else none
    drive := if l.drive = [breakBits] ∧ l.breakUntil ≤ now then [] else l.drive }

/-- BREAK_SEEN (R36, R163), at its instant: SPU enters STOPPED with the origin unknown, where LE hands breaks
on. -/
def execBreakSeen (s : State) (t : Nat := 0) : Host.Outcome State Fault Refusal :=
  withImage s (fun img =>
    if s.le.hearsLine then
      let s1 := (s.reach t).onLe (fun l => l.seeBreak (max s.now t))
      (if s.le.takesLine then s1.enterStopped img 3 img.station 0 else s1).conclude img s
    else s)

/-! ## Talk slots (R32 to R34, R49, R58) -/

/-- R49, R168: a TALLY of the fields as their owners hold them; in a FREE cue the cue's start bar and beat 1. After a
stop made in COUNTIN the beat and the vamp are CKE's, not the snapshot's: the model's choice (log entry 64). -/
def State.tally (img : Image) (s : State) : TallyFields :=
  { showId := img.showId.toNat, cue := s.spu.cue, bar := s.shownBar img, beat := s.shownBeat img,
    pass := s.cke.pass, showState := s.spu.showState, vampActive := s.cke.vamp.isSome,
    late := s.spu.late, suspect := s.spu.suspect, camfail := s.vsl.camfail }

/-- R32: LE sends in this slot. -/
def Le.sendsIn (l : Le) (img : Image) (r : Round) (slot : Nat) : Bool :=
  l.state == .joined && r.clean && l.owners[slot]? == some img.station && !l.resync && l.send.isNone

/-- R58: the head entry is marked in flight. -/
def flightHead : List Entry → List Entry
  | e :: rest => { e with inFlight := true } :: rest
  | [] => []

/-- R32, R49, R58: LE begins at the slot's start to send the head of the queue, or a TALLY made on the spot. -/
def Le.beginSend (l : Le) (img : Image) (slot start : Nat) (tally : TallyFields) : Le :=
  let m : Message :=
    match l.queue with
    | e :: _ => e.message
    | [] => .tally tally
  let chars := (m.raw img.station).chars
  { l with
    queue := flightHead l.queue, drive := chars, driveFrom := start, sentInSlot := false
    send := some { slot := slot, length := chars.length, queued := !l.queue.isEmpty } }

/-- R35: a break being driven at the slot's first position takes the place of the HEAD. -/
def Le.sendOverBreak (l : Le) (slot : Nat) : Le :=
  if l.breakDriving = some (slotStart slot) then { l.failSend with drive := [breakBits] } else l

/-- TALK_SLOT_START (R32, R49, R58). -/
def execTalkSlotStart (slot : Fin 3) (s : State) : Host.Outcome State Fault Refusal :=
  withImage s (fun img =>
    match s.le.round with
    | some r =>
      if r.stage = .judged && s.le.hearsLine then
        let start := positionEnd img r.edge (slotStart slot.val - 1)
        let s1 := s.reach start
        if s.le.sendsIn img r slot.val then
          s1.onLe (fun l => (l.beginSend img slot.val start (s.tally img)).sendOverBreak slot.val)
        else s1
      else s
    | none => s)

/-- The instant the last character of a send ends. -/
def State.reachSendEnd (img : Image) (x : Send) (s : State) : State :=
  match s.le.round with
  | some r => s.reach (positionEnd img r.edge (slotStart x.slot - 1 + x.length))
  | none => s

/-- SEND_COMPLETE (R34, R58). -/
def execSendComplete (s : State) : Host.Outcome State Fault Refusal :=
  withImage s (fun img =>
    match s.le.send with
    | some x =>
      (s.reachSendEnd img x).onLe (fun l => { l.settleSend true with sentInSlot := true })
    | none => s)

/-- FAILED_SEND (R33, R58). -/
def execFailedSend (s : State) : Host.Outcome State Fault Refusal :=
  withImage s (fun _ =>
    match s.le.send with
    | some _ => s.onLe Le.failSend
    | none => s)

/-! ## The message decoder (R52) -/

/-- A message counted as short (R52). -/
def Le.short (l : Le) : Le := { l with decoder := .discarding, shortCount := bump l.shortCount }

/-- R52: a HEAD received good in IDLE. -/
def Le.takeHead (l : Le) (data : Byte) : Le :=
  let sender := data.toNat % 32
  match MessageKind.ofCode (data.toNat / 32) with
  | some kind =>
    if sender < Config.stations then { l with decoder := .assembling kind sender [] }
    else { l with decoder := .discarding, badCount := bump l.badCount }
  | none => { l with decoder := .discarding, badCount := bump l.badCount }

/-- R52: a BODY received good in ASSEMBLING. -/
def Le.takeBody (l : Le) (kind : MessageKind) (sender : Nat) (body : List Byte) (data : Byte) : Le :=
  let body' := body ++ [data]
  if kind.bodies ≤ body'.length then
    { l with
      decoder := .done, received := some { kind := kind, sender := sender, body := body' } }
  else { l with decoder := .assembling kind sender body' }

/-- R52: the table of the decoder. -/
def Le.decode (l : Le) (c : Option Character) : Le :=
  match l.decoder, c with
  | .idle, some ch =>
    if ch.isGood .head then l.takeHead ch.data
    else if ch.error = some .breakSeen then l
    else l.short
  | .assembling kind sender body, some ch =>
    if ch.isGood .body then l.takeBody kind sender body ch.data else l.short
  | .assembling _ _ _, none => l.short
  | .done, some _ => { l with decoder := .discarding, badCount := bump l.badCount }
  | .idle, none | .done, none | .discarding, _ => l

/-- CHARACTER_RECEIVED (R21, R22, R34, R52), at the end of a position of a talk slot. -/
def execCharacterReceived (position : Nat) (w : Samples) (s : State) :
    Host.Outcome State Fault Refusal :=
  withImage s (fun img =>
    match s.le.round with
    | some r =>
      if r.stage = .judged && s.le.hearsLine then
        let c := takeChar s.le.resync w
        (s.reach (positionEnd img r.edge position)).onLe (fun l =>
          let l1 := { (l.sawBits w).endBreak position with resync := resyncAfter l.resync c }
          if l.takesLine then l1.decode c else l1)
      else s
    | none => s)

/-- R52: the end of a talk slot at its last position: an unfinished message is short, and the decoder is
IDLE. -/
def Le.endSlot (l : Le) (last : Nat) : Le :=
  { l with
    shortCount := (match l.decoder with
      | .assembling _ _ _ => bump l.shortCount
      | _ => l.shortCount)
    decoder := .idle, received := none, sentInSlot := false
    drive := if l.breakAfter last then l.drive else []
    breakDriving := if l.breakAfter last then l.breakDriving else none }

/-- TALK_SLOT_END (R52, R23): the round ends with slot 2. -/
def execTalkSlotEnd (slot : Fin 3) (s : State) : Host.Outcome State Fault Refusal :=
  withImage s (fun img =>
    match s.le.round with
    | some r =>
      if r.stage = .judged && s.le.hearsLine then
        let last := slotStart slot.val + 11
        (s.reach (positionEnd img r.edge last)).onLe (fun l =>
          { l.endSlot last with round := if slot.val = 2 then none else some r })
      else s
    | none => s)

/-- RECEIVER_RESYNCHRONISED (R22). -/
def execReceiverResynchronised (s : State) : Host.Outcome State Fault Refusal :=
  .next (s.onLe (fun l => { l with resync := false }))

end Sys2Proof.Machine
end

