-- ==== Sys2Proof/Machine/Loader.lean ====
section
/-! DEFINITION. Machine/Loader.lean: the loader (Chapter 1, 1.6 to 1.8), the image checks, and the meanings of
COLD_RESET, BYTE_ARRIVAL, IMAGE_ACCEPTED, FAILED and WARM_RESET. -/

namespace Sys2Proof.Machine

/-! ## Reading (R13) -/

/-- R13: the declared length is in range. -/
def lengthInRange (n : Nat) : Bool := decide (64 ≤ n ∧ n ≤ 32768)

/-- R13: a byte is added to the running sum, but for the check value, the last two of the declared length. -/
def Con.addByte (c : Con) (b : Byte) : Con :=
  let k := c.received.length
  let counted : Bool :=
    match c.declared with
    | some n => decide (k + 2 < n)
    | none => true
  { c with
    received := c.received ++ [b]
    sum := if counted then c.sum + BitVec.ofNat 16 b.toNat else c.sum }

/-- The declared length, once its two bytes are taken (1.6). -/
def Con.declare (c : Con) : Con :=
  match c.declared, c.received with
  | none, [hi, lo] => { c with declared := some (wordOf hi lo) }
  | _, _ => c

/-- R13: the read ends at a declared length out of range, with the fault LENGTH, or at its last byte. -/
def Con.endRead (c : Con) : Con :=
  match c.declared with
  | some n =>
    if lengthInRange n then
      (if n ≤ c.received.length then { c with loader := .checking } else c)
    else { c with loader := .checking, lengthFault := true }
  | none => c

/-- R13: one byte arrival. -/
def Con.takeByte (c : Con) (b : Byte) : Con := ((c.addByte b).declare).endRead

/-- The check value: the last two bytes, most significant first (log entry 6). -/
def Con.checkValue (c : Con) : BitVec 16 :=
  match c.received.reverse with
  | lo :: hi :: _ => BitVec.ofNat 16 (wordOf hi lo)
  | _ => 0

/-! ## The checks (R14) -/

/-- The fault codes of R14. -/
inductive LoadFault where
  | length | sum | format | rate | period | cueCount | field | order | cue0 | cueRef | patchRef
  | vamp | autoGo | ranking | role | failover
  deriving DecidableEq, Repr

/-- The code of a fault (R14). -/
def LoadFault.code : LoadFault → Nat
  | .length => 1
  | .sum => 2
  | .format => 3
  | .rate => 4
  | .period => 5
  | .cueCount => 6
  | .field => 7
  | .order => 8
  | .cue0 => 9
  | .cueRef => 10
  | .patchRef => 11
  | .vamp => 12
  | .autoGo => 13
  | .ranking => 14
  | .role => 15
  | .failover => 16

/-- A failed check: its fault, the failing cue index and the second detail byte (R15). -/
structure Failure where
  fault : LoadFault
  cue : Nat
  detail : Nat
  deriving DecidableEq, Repr

/-- A value lies in a range. -/
def within (lo n hi : Nat) : Bool := decide (lo ≤ n ∧ n ≤ hi)

/-- R2, R8: the line rate and the port rates are permitted values. -/
def ratesGood (img : Image) : Bool :=
  [250000, 500000, 1000000].contains img.lineRate &&
    [19200, 38400, 57600, 115200].contains img.portRates.a &&
    [19200, 38400, 57600, 115200].contains img.portRates.b

/-- R5: the ramp fields. -/
def rampGood (r : RampPart) : Bool := within 300 r.target 3000 && within 1 r.length 64

/-- R5: the vamp fields, but for the bars that code VAMP checks. -/
def vampFieldsGood (v : VampPart) : Bool := within 1 v.length 16 && decide (v.repeats ≤ 255)

/-- R5: the fields of a click part. -/
def clickGood (p : ClickPart) : Bool :=
  within 300 p.tempo 3000 && within 1 p.meter 16 && within 1 p.subdivision 4 &&
    p.ramp.all rampGood && p.vamp.all vampFieldsGood

/-- R3, R5, R6: the fields of a cue record. -/
def cueGood (c : Cue) : Bool :=
  within 1 c.label.length 4 && c.label.all (fun b => within 32 b.toNat 126) &&
    within 1 c.startBar Config.lastBar && c.click.all clickGood &&
    c.autoGo.all (fun g => within 1 g.bar Config.lastBar)

/-- R11: the fields of a patch action. -/
def actionGood (a : PatchAction) : Bool :=
  a.port.isSome && decide (a.slot ≤ 15) && within 1 a.bytes.length 8 &&
    a.settle.all (fun t => decide (t ≤ 255))

/-- R10: the video part of an entry (log entry 38). R10 says that each entry carries a patch part, a video part
or both, and gives no fault for one that carries neither: the model takes it as an entry with neither part
(log entry 51). -/
def entryGood (e : CueEntry) : Bool := e.video != some .other

/-- R2: the fields of the show-wide part that code FIELD checks. -/
def showGood (img : Image) : Bool :=
  decide (img.patience ≤ 63) && within 16 img.resumePatience 255 &&
    within 1 img.ranking.length 4 && img.ranking.all (fun k => decide (k < Config.stations)) &&
    img.cues.all cueGood

/-- R8: the fields of the per-station part that code FIELD checks. -/
def stationGood (img : Image) : Bool :=
  decide (img.station < Config.stations) && decide (img.pool.length ≤ 1024) &&
    img.pool.all actionGood && img.entries.all entryGood && within 100 img.frameInterval 500

/-- The lowest cue index that fails a test of cue records. -/
def firstCue (img : Image) (bad : Nat → Bool) : Option Nat := (List.range img.cueCount).find? bad

/-- The lowest cue index among failing entries. -/
def lowestEntry (img : Image) (bad : CueEntry → Bool) : Option Nat :=
  ((img.entries.filter bad).map CueEntry.cue).min?

/-- R3: the start bar is below the start bar of the cue before it. -/
def badOrder (img : Image) (k : Nat) : Bool :=
  decide (0 < k ∧ img.startBar k < img.startBar (k - 1))

/-- R7: an entry gives cue 0 a patch part; one that counts 0 acts as an absent one (R10; log entry 37). -/
def patchesCue0 (e : CueEntry) : Bool :=
  e.cue == 0 && e.patch.any (fun p => p.count != 0)

/-- R7: cue 0 has a click part, an auto-GO point, or in any of the entries that name it a patch part. -/
def badCue0 (img : Image) : Bool :=
  !img.isFree 0 || (img.autoGoOf 0).isSome || img.entries.any patchesCue0

/-- R10: how often the entries name a cue. -/
def timesNamed (img : Image) (cue : Nat) : Nat :=
  (img.entries.filter (fun e => e.cue == cue)).length

/-- R10: an entry names no cue of the table, or one named twice. -/
def badCueRef (img : Image) (e : CueEntry) : Bool :=
  decide (img.cueCount ≤ e.cue) || decide (2 ≤ timesNamed img e.cue)

/-- R10: a patch part counts more than 16 actions, or reaches past the end of the pool. -/
def badPatchRef (img : Image) (e : CueEntry) : Bool :=
  match e.patch with
  | some p => decide (p.count ≠ 0) && (decide (16 < p.count) || decide (img.pool.length < p.first + p.count))
  | none => false

/-- R5: a vamp starts before its cue's start bar or ends above bar 9999. -/
def badVamp (img : Image) (k : Nat) : Bool :=
  match img.clickOf k with
  | some part =>
    match part.vamp with
    | some v => decide (v.start < img.startBar k) || decide (Config.lastBar < vampLast v)
    | none => false
  | none => false

/-- R6: an auto-GO point in a FREE cue, with a beat outside 1 to the meter, before the start bar, or within
the vamp's bars. -/
def badAutoGo (img : Image) (k : Nat) : Bool :=
  match img.autoGoOf k, img.clickOf k with
  | some _, none => true
  | some g, some part =>
    !within 1 g.beat part.meter || decide (g.bar < img.startBar k) || barInVamp img k g.bar
  | none, _ => false

/-- R2, R15: the rank position, from 1, of the first station that repeats an earlier one (log entry 41). -/
def repeatedRank (l : List Nat) : Option Nat :=
  ((List.range l.length).find? (fun k => (l.take k).contains (l.getD k 0))).map (fun k => k + 1)

/-- R8, R15: the role detail: 1 for CALLER outside the caller set, else 2 for VIDEO-CRITICAL without VIDEO. -/
def roleFault (img : Image) : Option Nat :=
  if img.roles.caller && !img.isCallerStation img.station then some 1
  else if img.roles.videoCritical && !img.roles.video then some 2
  else none

/-- R8: the failover order is a permutation of the three sources. -/
def failoverGood (img : Image) : Bool :=
  img.failover.length == 3 && [Source.front, .lowlight, .wide].all (fun x => img.failover.contains (some x))

/-- A check that names no cue. -/
def plainFailure (fault : LoadFault) (good : Bool) : Option Failure :=
  if good then none else some { fault := fault, cue := 0, detail := 0 }

/-- A check that names the failing cue. -/
def cueFailure (fault : LoadFault) (cue : Option Nat) : Option Failure :=
  cue.map (fun k => { fault := fault, cue := k, detail := 0 })

/-- A check that gives a second detail byte. -/
def detailFailure (fault : LoadFault) (detail : Option Nat) : Option Failure :=
  detail.map (fun d => { fault := fault, cue := 0, detail := d })

/-- R14: the checks of the fields, codes 4 to 16, in order. -/
def fieldChecks (img : Image) : List (Option Failure) :=
  [ plainFailure .rate (ratesGood img),
    plainFailure .period (within 48 img.period 255),
    plainFailure .cueCount (within 2 img.cueCount 512),
    plainFailure .field (showGood img && stationGood img),
    cueFailure .order (firstCue img (badOrder img)),
    plainFailure .cue0 (!badCue0 img),
    cueFailure .cueRef (lowestEntry img (badCueRef img)),
    cueFailure .patchRef (lowestEntry img (badPatchRef img)),
    cueFailure .vamp (firstCue img (badVamp img)),
    cueFailure .autoGo (firstCue img (badAutoGo img)),
    detailFailure .ranking (repeatedRank img.ranking),
    detailFailure .role (roleFault img),
    plainFailure .failover (failoverGood img) ]

/-- R14: the first check of the fields that fails. -/
def fieldFault (img : Image) : Option Failure := (fieldChecks img).findSome? id

/-- R14: codes 1 and 2, on the received bytes. -/
def Con.readFault (c : Con) : Option Failure :=
  if c.lengthFault then some { fault := .length, cue := 0, detail := 0 }
  else plainFailure .sum (c.sum == c.checkValue)

/-- R14: the first check that fails. -/
def Con.loadFault (c : Con) (reading : Reading) : Option Failure :=
  match c.readFault with
  | some f => some f
  | none =>
    match reading with
    | .fields img => fieldFault img
    | .unformed _ => some { fault := .format, cue := 0, detail := 0 }

/-- R14, 1.6: what the received bytes have read as under the agreed arrangement, where a check has looked before. -/
def State.readingOf (s : State) : Option Reading := s.readings.lookup s.con.received

/-- R14: the received bytes read so: what they read as depends on those bytes alone, so bytes that read one way
once read that way again. What bytes not yet looked at read as is free (log entry 5). -/
def State.readsAs (s : State) (reading : Reading) : Bool :=
  match s.readingOf with
  | some x => x == reading
  | none => true

/-- R14: the received bytes are known to read so. -/
def State.recordReading (reading : Reading) (s : State) : State :=
  { s with
    readings := if s.readingOf = none then s.readings ++ [(s.con.received, reading)] else s.readings }

/-- The station number the bytes read as, where that field was received. -/
def stationRead : Reading → Option Nat
  | .fields img => some img.station
  | .unformed k => k

/-- R15: the station of an IMAGE notice: the one received, in 0 to 23; 255 otherwise. After LENGTH only the
declared length was read. -/
def noticeStation (reading : Reading) (f : Failure) : Nat :=
  match stationRead reading with
  | some k => if k < Config.stations ∧ f.fault ≠ LoadFault.length then k else 255
  | none => 255

/-- R15: the IMAGE notice. -/
def imageNotice (reading : Reading) (f : Failure) : Notice :=
  { kind := .image, round := 0, cue := f.cue, station := noticeStation reading f,
    detail1 := f.fault.code, detail2 := f.detail }

/-! ## ATTEND (R196) -/

/-- R196: from image accepted the ATTEND contribution follows its condition. -/
def Con.judgeAttend (c : Con) : Con := { c with attendPosted := c.attendLine || c.attendFlag }

/-! ## Acceptance (R16) -/

/-- R16, R39, R89, R98, R113, R129, R142, R157: the station at image accepted, before SAFETY is read. -/
def State.accept (img : Image) (s : State) : State :=
  { s with
    image := some img
    con := { s.con with loader := .accepted }.judgeAttend
    le := Le.cold.enterListen img s.now
    spu := Spu.cold
    psq := Psq.start
    cke := Cke.cold.freeStart img 0
    vsl := Vsl.start img s.now }

/-- R16: SAFETY is read as it stands. -/
def State.readSafety (img : Image) (s : State) : State :=
  if s.con.safetyLine then s.raiseStop img .safety 0 else s

/-! ## Warm reset (R18, R47, R90, R114, R140, R157, R180, R186, R189, R192) -/

/-- R192, R196: CON at a warm reset, before RESTART is posted. -/
def Con.warm (c : Con) : Con :=
  { c with
    notices := [], overflow := false, together := [], frame := .closed, restartOwed := false,
    attendFlag := false, lamp := false }.judgeAttend

/-- R47, R59: the character or break under way at an instant, which LE finishes; none while it drives nothing. -/
def Le.lastDriven (l : Le) (img : Image) (now : Nat) : List Samples := (l.driving img now).toList

/-- R47: where the character under way at an instant began; the instant itself while LE drives nothing. -/
def Le.lastFrom (l : Le) (img : Image) (now : Nat) : Nat :=
  if (l.driving img now).isSome then l.driveFrom + (now - l.driveFrom) / img.charTime * img.charTime else now

/-- R47: where LE drives nothing any more: the end of the character under way at an instant, or the instant. -/
def Le.driveEnds (l : Le) (img : Image) (now : Nat) : Nat :=
  l.lastFrom img now + (l.lastDriven img now).length * img.charTime

/-- R47, R55, R59, R61: LE at a warm reset at an instant: it finishes the character or break it is driving, up
to breakUntil, and the round timer of LISTEN starts there (log entry 30). -/
def Le.warm (l : Le) (img : Image) (now : Nat) : Le :=
  { l.enterListen img (l.driveEnds img now) with
    thisMap := 0, lastMap := 0, blind := false, owners := [], beatSource := none, readBackRun := 0,
    isolationCount := 0, breakPending := false, breakDriving := none
    breakUntil := l.driveEnds img now, drive := l.lastDriven img now, driveFrom := l.lastFrom img now
    decoder := .idle, received := none, queue := [], waitingHalt := none, send := none,
    sentInSlot := false }

/-- R90, R180, R186, R189: SPU at a warm reset. -/
def Spu.warm (u : Spu) : Spu :=
  { u with
    suspect := true, launchPending := false, lastTransition := none, proposal := none,
    observed := none, armed := none, awaitingCall := false, callWindow := none, dissent := false,
    stopPosted := u.ownStop, resumeWindow := none, awaitingResume := false,
    restart := if u.showState = .countin then u.restart else none, refWait := 0,
    restartRecall := true }

/-- R192: every block takes its warm-reset values, and RESTART (warm) is posted. -/
def State.warmReset (img : Image) (s : State) : State :=
  let s1 : State :=
    { s with
      con := s.con.warm
      le := s.le.warm img s.now
      spu := s.spu.warm
      psq := s.psq.warm s.spu.showState
      cke := s.cke.warm s.spu.showState
      vsl := s.vsl.warm img s.spu.cue s.spu.showState s.now }
  (s1.post .con .restart img.station 2 0).flush

/-! ## Meanings -/

/-- COLD_RESET (R12, R46, R89, R113, R140, R157, R180, R194): every block at its cold-reset values; the
waiting commands, the instant, the free-choice counter and the agreed arrangement stay (log entries 5, 35,
36). -/
def execColdReset (s : State) : Host.Outcome State Fault Refusal :=
  .next { State.reset with
    pending := s.pending, now := s.now, draws := s.draws, readings := s.readings }

/-- BYTE_ARRIVAL (R13), in LOADING. -/
def execByteArrival (b : Byte) (s : State) : Host.Outcome State Fault Refusal :=
  if s.con.loader = .loading then .next (s.onCon (fun c => c.takeByte b)) else .next s

/-- IMAGE_ACCEPTED (R14, R16), in CHECKING, when no check of the bytes and fields fails. The received bytes read
as these fields: under another reading the event cannot come (log entries 3, 5). -/
def execImageAccepted (t : Nat) (img : Image) (s : State) : Host.Outcome State Fault Refusal :=
  if s.con.loader = .checking ∧ s.readsAs (.fields img) = true ∧ s.con.loadFault (.fields img) = none then
    let s1 := ((s.recordReading (.fields img)).reach t).accept img
    .next ((s1.readSafety img).conclude img s1)
  else .next s

/-- FAILED (R14, R15), in CHECKING, at the first check that fails, under the reading of the received bytes. -/
def execFailed (reading : Reading) (s : State) : Host.Outcome State Fault Refusal :=
  if s.con.loader = .checking ∧ s.readsAs reading = true then
    match s.con.loadFault reading with
    | some f =>
      .next (((s.recordReading reading).onCon (fun c => { c with loader := .failed })).postNotice .con
        (imageNotice reading f)).flush
    | none => .next s
  else .next s

/-- WARM_RESET (R192), at its instant: the release of chip select after a RESTART answered OK. -/
def execWarmReset (t : Nat) (s : State) : Host.Outcome State Fault Refusal :=
  if s.con.restartOwed then withImage s (fun img => (s.reach t).warmReset img) else .next s

end Sys2Proof.Machine
end

