-- ==== Sys2Proof/Machine/Console.lean ====
section
/-! DEFINITION. Machine/Console.lean: the console port (Chapter 10): frames and replies, the notice queue's reading,
ATTEND, and the meanings of the console commands. -/

namespace Sys2Proof.Machine

/-! ## Replies (R64, R190, R191) -/

/-- Reply codes (R64). -/
inductive ReplyCode where
  | ok | refused | busy | badArg
  deriving DecidableEq, Repr

/-- The byte of a reply code (R64). -/
def ReplyCode.byte : ReplyCode → Byte
  | .ok => 0
  | .refused => 1
  | .busy => 2
  | .badArg => 3

/-- R190: at the command event the reply code and data are fixed, and the frame is under way. -/
def State.answer (frame : Frame) (code : ReplyCode) (data : List Byte) (s : State) : State :=
  s.onCon (fun c => { c with frame := frame, reply := code.byte :: data })

/-- A reply without data. -/
def State.reply (code : ReplyCode) (s : State) : State := s.answer .other code []

/-- R17: a command that a station without a held image refuses. -/
def withShow (s : State) (f : Image → State) : Host.Outcome State Fault Refusal :=
  match s.image with
  | some img => .next (f img)
  | none => .next (s.reply .refused)

/-! ## Checks of arguments (R67, R172, R191) -/

/-- R67: the CALL of a console GO; none where its arguments are answered BADARG. -/
def State.goCall (img : Image) (target : Nat) (whenArg : Byte) (s : State) : Option CallFields :=
  match whenOf whenArg with
  | some d =>
    if target = 0 ∨ img.cueCount ≤ target ∨ target = s.spu.cue then none
    else some { base := s.spu.cue, target := target, downbeat := d }
  | none => none

/-- R67: a console GO. -/
def State.takeGo (img : Image) (target : Nat) (whenArg : Byte) (s : State) : State :=
  if s.refusesGo img then s.reply .refused
  else
    match s.goCall img target whenArg with
    | some f => (s.submitCall f).reply .ok
    | none => s.reply .badArg

/-- R172: the RESUME of a console RESUME; none where its arguments are answered BADARG. -/
def resumeOf (img : Image) (cue bar : Nat) (countIn mask : Byte) : Option ResumeFields :=
  match RestoreMask.ofByte mask with
  | some m =>
    if img.cueCount ≤ cue ∨ Config.lastBar < bar ∨ 4 < countIn.toNat then none
    else some { cue := cue, bar := bar, countIn := countIn.toNat, mask := m }
  | none => none

/-- R172: a RESUME request is refused. -/
def State.refusesResumeRequest (img : Image) (s : State) : Bool :=
  !img.roles.caller || s.le.localRunning

/-- R172, R57: a RESUME request whose arguments pass: BUSY where the queue refuses it. -/
def State.submitResume (f : ResumeFields) (s : State) : State :=
  if s.le.refusesResume f then s.reply .busy
  else (s.onLe (fun l => l.submitResume f)).reply .ok

/-- R172: a console RESUME. -/
def State.requestResume (img : Image) (cue bar : Nat) (countIn mask : Byte) (s : State) : State :=
  if s.refusesResumeRequest img then s.reply .refused
  else
    match resumeOf img cue bar countIn mask with
    | some f => s.submitResume f
    | none => s.reply .badArg

/-- R191: the TEMPO of a console TEMPO; none where its arguments are answered BADARG. -/
def tempoOf (tempo : Nat) (whenArg : Byte) : Option TempoFields :=
  if tempo < 300 ∨ 3000 < tempo then none
  else (whenOf whenArg).map (fun d => { tempo := tempo, atOnce := d })

/-- A message submitted to the talk queue and accepted (R57). -/
def State.submit (m : Message) (s : State) : State :=
  (s.onLe (fun l => l.submitReplacing m)).reply .ok

/-! ## Reading the queue and the flag (R193, R194) -/

/-- R193: a NOTICE command selects and captures the oldest record. -/
def State.selectNotice (s : State) : State :=
  match s.con.notices with
  | n :: _ => s.answer .notice .ok n.bytes
  | [] => s.answer .other .ok (List.replicate 7 0)

/-- R193: the selected record leaves the queue. -/
def Con.removeNotice (c : Con) : Con :=
  match c.frame with
  | .notice => { c with notices := c.notices.tail, frame := .other }
  | .closed | .status _ _ | .other => c

/-- R194: the captured overflow flag is cleared unless a record was discarded since. -/
def Con.clearOverflow (c : Con) : Con :=
  match c.frame with
  | .status captured discarded =>
    { c with overflow := c.overflow && !(captured && !discarded), frame := .other }
  | .closed | .notice | .other => c

/-! ## Meanings -/

/-- CONSOLE_STATUS (R17, R194, R64): answered in every loader state; the overflow flag is captured. -/
def execConsoleStatus (s : State) : Host.Outcome State Fault Refusal :=
  .next (s.answer (.status s.con.overflow false) .ok s.statusReply)

/-- OVERFLOW_CLEAR (R194), at the end of the ninth reply byte. -/
def execOverflowClear (s : State) : Host.Outcome State Fault Refusal :=
  .next (s.onCon Con.clearOverflow)

/-- CONSOLE_POSITION (R191, R64). -/
def execConsolePosition (s : State) : Host.Outcome State Fault Refusal :=
  withShow s (fun img => s.answer .other .ok (s.positionReply img))

/-- CONSOLE_NOTICE (R17, R193): answered in every loader state. -/
def execConsoleNotice (s : State) : Host.Outcome State Fault Refusal := .next s.selectNotice

/-- NOTICE_REMOVAL (R193), at the end of the seventh reply byte. -/
def execNoticeRemoval (s : State) : Host.Outcome State Fault Refusal :=
  .next (s.onCon Con.removeNotice)

/-- CONSOLE_GO (R67, R191). -/
def execConsoleGo (target : BitVec 16) (whenArg : Byte) (s : State) :
    Host.Outcome State Fault Refusal :=
  withShow s (fun img => s.takeGo img target.toNat whenArg)

/-- CONSOLE_STOP (R159, R191): a stop request with reason CONSOLE, at its instant; always OK. -/
def execConsoleStop (detail : Byte) (s : State) (t : Nat := 0) : Host.Outcome State Fault Refusal :=
  withShow s (fun img => (((s.reach t).raiseStop img .console detail).conclude img s).reply .ok)

/-- CONSOLE_RELEASE (R169, R191). -/
def execConsoleRelease (s : State) : Host.Outcome State Fault Refusal :=
  withShow s (fun img =>
    (s.release img).flush.reply (if s.con.safetyLine then .refused else .ok))

/-- CONSOLE_RESUME (R172, R191). -/
def execConsoleResume (cue bar : BitVec 16) (countIn mask : Byte) (s : State) :
    Host.Outcome State Fault Refusal :=
  withShow s (fun img => s.requestResume img cue.toNat bar.toNat countIn mask)

/-- CONSOLE_CAMERA (R191). -/
def execConsoleCamera (source : Byte) (s : State) : Host.Outcome State Fault Refusal :=
  withShow s (fun _ =>
    match cameraOfCode source.toNat with
    | some x => s.submit (.camera x)
    | none => s.reply .badArg)

/-- CONSOLE_TEMPO (R191). -/
def execConsoleTempo (tempo : BitVec 16) (whenArg : Byte) (s : State) :
    Host.Outcome State Fault Refusal :=
  withShow s (fun _ =>
    match tempoOf tempo.toNat whenArg with
    | some f => s.submit (.tempo f)
    | none => s.reply .badArg)

/-- CONSOLE_ATTEND (R191, R196). -/
def execConsoleAttend (arg : Byte) (s : State) : Host.Outcome State Fault Refusal :=
  withShow s (fun _ =>
    match whenOf arg with
    | some on =>
      (s.onCon (fun c => { c with attendFlag := on }.judgeAttend)).reply .ok
    | none => s.reply .badArg)

/-- CONSOLE_RESTART (R192): a warm reset is owed at the release of chip select. -/
def execConsoleRestart (s : State) : Host.Outcome State Fault Refusal :=
  withShow s (fun _ => (s.onCon (fun c => { c with restartOwed := true })).reply .ok)

/-- UNKNOWN_COMMAND (R190): BADARG at once, with no effect (log entry 47). -/
def execUnknownCommand (_code : Byte) (s : State) : Host.Outcome State Fault Refusal :=
  .next (s.reply .badArg)

/-- ATTEND_LINE_CHANGE (R195, R196): the filtered level; from image accepted the contribution follows. -/
def execAttendLineChange (asserted : Bool) (s : State) : Host.Outcome State Fault Refusal :=
  let s1 := s.onCon (fun c => { c with attendLine := asserted })
  withImage s1 (fun _ => s1.onCon Con.judgeAttend)

end Sys2Proof.Machine
end

