-- ==== Sys2Proof/Machine/Video.lean ====
section
/-! DEFINITION. Machine/Video.lean: the meanings of FRAME_SYNC, FRAME_WINDOW_EXPIRY, SLATE_TIMER_EXPIRY and
CAPTION_SENT (Chapter 7). -/

namespace Sys2Proof.Machine

/-- FRAME_SYNC (R143, R148, R149, R153), at its instant. -/
def execFrameSync (i : Source) (t : Nat) (ready : Bool) (s : State) :
    Host.Outcome State Fault Refusal :=
  withImage s (fun img => ((s.reach t).syncFrame img i ready).flush)

/-- FRAME_WINDOW_EXPIRY (R144, R147, R155), at the pending expiry of a running window timer. -/
def execFrameWindowExpiry (i : Source) (s : State) : Host.Outcome State Fault Refusal :=
  withImage s (fun img =>
    match (s.vsl.monitors.get i).window with
    | some e => ((s.reach e).windowExpiry img i e).conclude img s
    | none => s)

/-- SLATE_TIMER_EXPIRY (R154, R153), at the pending expiry: it restarts itself, and the composer takes it as
a frame boundary. -/
def execSlateTimerExpiry (ready : Bool) (s : State) : Host.Outcome State Fault Refusal :=
  withImage s (fun img =>
    match s.vsl.slate with
    | some e =>
      ((s.reach e).onVsl (fun v => { v with slate := some (e + img.frameWindow) })).captionFrame img
        ready
    | none => s)

/-- CAPTION_SENT (R153): the last stop bit of the record ends, and the composer returns to idle. -/
def execCaptionSent (s : State) : Host.Outcome State Fault Refusal :=
  match s.vsl.composer with
  | .sending _ ends => .next ((s.reach ends).onVsl (fun v => { v with composer := .idle }))
  | .idle => .next s

end Sys2Proof.Machine
end

