-- ==== Sys2Proof/Machine/Dispatch.lean ====
section
/-! DEFINITION. Machine/Dispatch.lean: one arm per command. -/

namespace Sys2Proof.Machine

def exec (i : Instr) (s : State) : Host.Outcome State Fault Refusal :=
  match i with
  | .coldReset => Sys2Proof.Machine.execColdReset s
  | .byteArrival b => Sys2Proof.Machine.execByteArrival b s
  | .imageAccepted t img => Sys2Proof.Machine.execImageAccepted t img s
  | .failed r => Sys2Proof.Machine.execFailed r s
  | .roundOpening t n => Sys2Proof.Machine.execRoundOpening t n s
  | .roundTimerExpiry silent => Sys2Proof.Machine.execRoundTimerExpiry silent s
  | .listenTimerExpiry silent => Sys2Proof.Machine.execListenTimerExpiry silent s
  | .markSeen w => Sys2Proof.Machine.execMarkSeen w s
  | .voteFieldStart => Sys2Proof.Machine.execVoteFieldStart s
  | .localVoteFieldStart => Sys2Proof.Machine.execLocalVoteFieldStart s
  | .voteFieldComplete v0 v1 v2 v3 => Sys2Proof.Machine.execVoteFieldComplete v0 v1 v2 v3 s
  | .localVoteFieldComplete => Sys2Proof.Machine.execLocalVoteFieldComplete s
  | .lineFault t => Sys2Proof.Machine.execLineFault t s
  | .breakStart p w t => Sys2Proof.Machine.execBreakStart p w s t
  | .breakSeen t => Sys2Proof.Machine.execBreakSeen s t
  | .talkSlotStart k => Sys2Proof.Machine.execTalkSlotStart k s
  | .localTalkSlotStart k => Sys2Proof.Machine.execLocalTalkSlotStart k s
  | .sendComplete => Sys2Proof.Machine.execSendComplete s
  | .failedSend => Sys2Proof.Machine.execFailedSend s
  | .talkSlotEnd k => Sys2Proof.Machine.execTalkSlotEnd k s
  | .malformedMessage => Sys2Proof.Machine.execMalformedMessage s
  | .tallyArrival => Sys2Proof.Machine.execTallyArrival s
  | .callArrival => Sys2Proof.Machine.execCallArrival s
  | .resumeArrival => Sys2Proof.Machine.execResumeArrival s
  | .haltArrival => Sys2Proof.Machine.execHaltArrival s
  | .tempoArrival => Sys2Proof.Machine.execTempoArrival s
  | .cameraArrival => Sys2Proof.Machine.execCameraArrival s
  | .loadStep p t => Sys2Proof.Machine.execLoadStep p s t
  | .scanStep t => Sys2Proof.Machine.execScanStep s t
  | .actionSent p t => Sys2Proof.Machine.execActionSent p t s
  | .settleExpiry p => Sys2Proof.Machine.execSettleExpiry p s
  | .beatTimerExpiry => Sys2Proof.Machine.execBeatTimerExpiry s
  | .shadowTimerExpiry => Sys2Proof.Machine.execShadowTimerExpiry s
  | .subTimerExpiry => Sys2Proof.Machine.execSubTimerExpiry s
  | .frameSync x t r => Sys2Proof.Machine.execFrameSync x t r s
  | .frameWindowExpiry x => Sys2Proof.Machine.execFrameWindowExpiry x s
  | .slateTimerExpiry r => Sys2Proof.Machine.execSlateTimerExpiry r s
  | .captionSent => Sys2Proof.Machine.execCaptionSent s
  | .stopPress r t => Sys2Proof.Machine.execStopPress s r t
  | .releasePress r => Sys2Proof.Machine.execReleasePress s r
  | .goPress r => Sys2Proof.Machine.execGoPress s r
  | .tapPress t r => Sys2Proof.Machine.execTapPress t s r
  | .safetyAssertion t => Sys2Proof.Machine.execSafetyAssertion s t
  | .safetyDeassertion => Sys2Proof.Machine.execSafetyDeassertion s
  | .attendLineChange a => Sys2Proof.Machine.execAttendLineChange a s
  | .consoleStatus => Sys2Proof.Machine.execConsoleStatus s
  | .overflowClear => Sys2Proof.Machine.execOverflowClear s
  | .consolePosition => Sys2Proof.Machine.execConsolePosition s
  | .consoleNotice => Sys2Proof.Machine.execConsoleNotice s
  | .noticeRemoval => Sys2Proof.Machine.execNoticeRemoval s
  | .consoleGo x w => Sys2Proof.Machine.execConsoleGo x w s
  | .consoleStop d t => Sys2Proof.Machine.execConsoleStop d s t
  | .consoleRelease => Sys2Proof.Machine.execConsoleRelease s
  | .consoleResume c b n m => Sys2Proof.Machine.execConsoleResume c b n m s
  | .consoleCamera x => Sys2Proof.Machine.execConsoleCamera x s
  | .consoleTempo x w => Sys2Proof.Machine.execConsoleTempo x w s
  | .consoleAttend a => Sys2Proof.Machine.execConsoleAttend a s
  | .consoleRestart => Sys2Proof.Machine.execConsoleRestart s
  | .unknownCommand c => Sys2Proof.Machine.execUnknownCommand c s
  | .warmReset t => Sys2Proof.Machine.execWarmReset t s
  | .characterReceived p w => Sys2Proof.Machine.execCharacterReceived p w s
  | .receiverResynchronised => Sys2Proof.Machine.execReceiverResynchronised s

end Sys2Proof.Machine
end

