-- ==== Sys2Proof/Safety.lean ====
section
/-! DEFINITION. Safety.lean: the properties that every step keeps, and the words the statements use. -/

namespace Sys2Proof.Machine

/-! ## What every step keeps -/

/-- R193: the notice queue holds at most 32 records, and no posting is left over between steps. -/
def State.noticesFit (s : State) : Prop :=
  s.con.notices.length ≤ Config.noticeRoom ∧ s.con.together = []

/-- R158, R162, R170: STOP is posted exactly while own-stop is set, and own-stop is set only in STOPPED. -/
def State.stopClaim (s : State) : Prop :=
  s.spu.stopPosted = s.spu.ownStop ∧ (s.spu.ownStop = true → s.spu.showState = .stopped)

/-- The kinds of the queued messages, front first. -/
def Le.kinds (l : Le) : List MessageKind := l.queue.map (fun e => e.message.kind)

/-- R56: at most one message of each kind, never a TALLY, a HALT at the front only, and a HALT waits only
while none is queued. -/
def State.queueOrdered (s : State) : Prop :=
  s.le.kinds.Nodup ∧ MessageKind.tally ∉ s.le.kinds ∧ MessageKind.halt ∉ s.le.kinds.tail ∧
    (s.le.waitingHalt.isSome = true → MessageKind.halt ∉ s.le.kinds)

/-- R100: NOTREADY is posted exactly while a pending target is held and a port is not ready for it. -/
def State.readinessTold (s : State) : Prop := s.psq.notReady = s.psq.unready

/-- A held image whose station has the VIDEO role. -/
def State.inService (s : State) : Bool :=
  match s.image with
  | some img => img.inService
  | none => false

/-- R150: in service CAMFAIL is posted exactly while the live source differs from the desired one. -/
def State.camfailTold (s : State) : Prop :=
  s.vsl.camfail = (s.inService && s.vsl.live != s.vsl.desired)

/-- R196: from image accepted ATTEND is posted exactly while the line or the console flag asks. -/
def State.attendTold (s : State) : Prop :=
  s.con.attendPosted = (s.image.isSome && (s.con.attendLine || s.con.attendFlag))

/-- R12: an image is held exactly in ACCEPTED, and LE is OFFLINE without one. -/
def State.imageHeld (s : State) : Prop :=
  (s.image.isSome = true ↔ s.con.loader = .accepted) ∧
    (s.image.isSome = false → s.le.state = .offline)

/-- R33, R43, R55: the four reported counts lie in 0 to 255. -/
def State.countsFit (s : State) : Prop :=
  s.le.clashCount ≤ 255 ∧ s.le.lineFaultCount ≤ 255 ∧ s.le.shortCount ≤ 255 ∧ s.le.badCount ≤ 255

/-! ## Words of the statements -/

/-- R193, R65: CON after one posting that reaches the queue. -/
def State.conAfter (s : State) (kind : NoticeKind) (station d1 d2 : Nat) : Con :=
  s.con.append
    { kind := kind, round := s.le.roundCount, cue := s.spu.cue, station := station,
      detail1 := d1, detail2 := d2 }

/-- R193: a record posted in the step, with the round count as it stands and a cue index, is in the queue, unless the
queue has no room left. -/
def Told (u : State) (cue : Nat) (kind : NoticeKind) (station d1 d2 : Nat) : Prop :=
  { kind := kind, round := u.le.roundCount, cue := cue, station := station,
    detail1 := d1, detail2 := d2 } ∈ u.con.notices ∨ 32 ≤ u.con.notices.length

/-- The command answers a next state in which a property holds. -/
def Completes (c : Instr) (s : State) (p : State → Prop) : Prop := ∃ t, exec c s = .next t ∧ p t

/-- Nothing outside LE, the instant and the notices changed. -/
def OnlyLine (s t : State) : Prop :=
  t.spu = s.spu ∧ t.psq = s.psq ∧ t.cke = s.cke ∧ t.vsl = s.vsl ∧ t.con = s.con ∧
    t.image = s.image ∧ t.pending = s.pending ∧ t.readings = s.readings

/-- The queue of commands, the held image and the agreed arrangement are as before. -/
def SameHost (s t : State) : Prop :=
  t.pending = s.pending ∧ t.image = s.image ∧ t.readings = s.readings

/-- The click record is as before, but for its timers and a beat due. -/
def SameClick (k k' : Cke) : Prop :=
  k'.tempo = k.tempo ∧ k'.override = k.override ∧ k'.ramp = k.ramp ∧ k'.bar = k.bar ∧
    k'.beat = k.beat ∧ k'.vamp = k.vamp ∧ k'.launch = k.launch ∧ k'.armedTarget = k.armedTarget ∧
    k'.countIn = k.countIn ∧ k'.compare = k.compare ∧ k'.part = k.part ∧ k'.lanes = k.lanes ∧
    k'.tap = k.tap

/-- Nothing outside the patch ports changed, but for the instant. -/
def OnlyPatch (s t : State) : Prop :=
  t.spu = s.spu ∧ t.le = s.le ∧ t.cke = s.cke ∧ t.vsl = s.vsl ∧ t.con = s.con ∧ SameHost s t

/-- Nothing outside the click record changed, but for the instant. -/
def OnlyClick (s t : State) : Prop :=
  t.spu = s.spu ∧ t.le = s.le ∧ t.psq = s.psq ∧ t.vsl = s.vsl ∧ t.con = s.con ∧ SameHost s t

/-- Nothing outside the console changed. -/
def OnlyConsole (s t : State) : Prop :=
  t.spu = s.spu ∧ t.le = s.le ∧ t.psq = s.psq ∧ t.cke = s.cke ∧ t.vsl = s.vsl ∧ SameHost s t

/-- What makes a round clean at a station whose receiver takes every character (R28): the vote characters
of data d0 to d3, with D7 of V0 recessive. Its read-back may fail, but not for the third time in a row in JOINED,
which isolates the station (R37). -/
def CleanRound (r : Round) (s : State) (d0 d1 d2 d3 : Byte) (v : List Samples) : Prop :=
  s.le.round = some r ∧ r.stage = .voting ∧ r.markGood = true ∧ r.onPeriod = true ∧
    s.le.resync = false ∧ d0.getLsbD 7 = false ∧
    v = [charBitsOf .vote d0, charBitsOf .vote d1, charBitsOf .vote d2, charBitsOf .vote d3] ∧
    (s.le.state = .joined → r.drove = true → r.failsReadBack v = true → s.le.readBackRun < 2)

/-- R26, R45: the round is on period: the station opened it with its own MARK, or its opening edge lies within half a
character time of an expiry, before or after it, of the joining timer. The expiries looked at are the last one taken
and the pending one (log entry 10). -/
def OnPeriod (img : Image) (l : Le) (r : Round) : Prop :=
  r.own = true ∨ ∃ e,
    (if l.localRunning = true then l.lastListen = some e ∨ l.listenTimer = some e
      else l.lastExpiry = some e ∨ l.roundTimer = some e) ∧
    2 * (r.edge - e) ≤ img.charTime ∧ 2 * (e - r.edge) ≤ img.charTime

/-- R53, R54: the decoder has completed a message whose fields pass, from a station, and LE hands it on; the
station's own only after a send of its own. -/
def Arrives (img : Image) (s : State) (sender : Nat) (m : Message) : Prop :=
  s.le.takesLine = true ∧ (sender = img.station → s.le.sentInSlot = true) ∧
    ∃ raw : RawMessage, s.le.received = some raw ∧ raw.sender = sender ∧
      raw.parse img.cueCount = some m

/-- No proposal of any kind is held, and none has armed. -/
def State.holdsNothing (s : State) : Prop :=
  s.spu.proposal = none ∧ s.spu.observed = none ∧ s.spu.armed = none

/-- A message has been taken, and nothing else of LE changed. -/
def TookMessage (s t : State) : Prop := t.le = { s.le with received := none } ∧ SameHost s t

/-- What makes a round blind at its vote field (R28): its opening, a vote character not received good, or D7 of
V0 dominant. -/
def BlindRound (r : Round) (s : State) (v : List Samples) : Prop :=
  r.markGood = false ∨ r.onPeriod = false ∨ s.le.resync = true ∨
    (∃ w ∈ v, goodVote (receiveChar w) = false) ∨
    (dataOf (receiveChar (v.getD 0 0))).getLsbD 7 = true

/-- R14: nothing yet known of the agreed arrangement speaks against the received bytes reading so. -/
def ReadsAs (s : State) (reading : Reading) : Prop :=
  s.readings.lookup s.con.received = none ∨ s.readings.lookup s.con.received = some reading

/-- R14: the received bytes are known to read so from here on, and nothing else is known anew. -/
def RecordsReading (reading : Reading) (s t : State) : Prop :=
  ∀ bytes, t.readings.lookup bytes =
    if bytes = s.con.received then some reading else s.readings.lookup bytes

/-- R27: what the blocks have posted: STOP and DISSENT by SPU, NOTREADY by PSQ, BEAT and DOWNBEAT by CKE, CAMFAIL by
VSL, ATTEND by CON. -/
def Posts (s : State) (c : Contributions) : Prop :=
  c.stop = s.spu.stopPosted ∧ c.dissent = s.spu.dissent ∧ c.notReady = s.psq.notReady ∧
    c.beat = s.cke.beatPosted ∧ c.downbeat = s.cke.downbeatPosted ∧ c.camfail = s.vsl.camfail ∧
    c.attend = s.con.attendPosted

/-- R32: the station may send in this slot: it is JOINED, the round is clean, the slot is its own, its receiver does
not resynchronise, and no send is under way. -/
def MaySend (img : Image) (l : Le) (r : Round) (slot : Nat) : Prop :=
  l.state = .joined ∧ r.clean = true ∧ l.owners[slot]? = some img.station ∧ l.resync = false ∧
    l.send = none

/-- R22, R35, R36: what a break seen at an instant does to LE: the receiver resynchronises, and a break of the
station's own is driven on exactly while its character time lasts, after a warm reset too (R47). -/
def SeesBreak (t : Nat) (s u : State) : Prop :=
  u.now = max s.now t ∧ u.le = { s.le with
    resync := true, dominantSeen := true, silenceCount := 0
    breakDriving := if max s.now t < s.le.breakUntil then s.le.breakDriving else none
    drive := if s.le.drive = [breakBits] ∧ s.le.breakUntil ≤ max s.now t then [] else s.le.drive }

/-- R182, R186: the station heeds the TALLYs of another station: it is the beat source as last handed, or the station
itself is, and is suspect. -/
def Heeds (img : Image) (s : State) (sender : Nat) : Prop :=
  sender ≠ img.station ∧
    (s.le.beatSource = some sender ∨ s.le.beatSource = some img.station ∧ s.spu.suspect = true)

/-- R148: the pending switch after a re-choice. The choice is the desired source where it is LOCKED, else the live
source, else the first LOCKED one of the failover order; it is pending unless it is live already. -/
def Rechosen (img : Image) (v : Vsl) : Prop :=
  (∀ d, v.desired = some d → (v.monitors.get d).lock = .locked →
    v.pendingSwitch = if v.live = some d then none else some d) ∧
  ((v.desired = none ∨ ∃ d, v.desired = some d ∧ (v.monitors.get d).lock ≠ .locked) →
    (v.live ≠ none → v.pendingSwitch = none) ∧
    (v.live = none → v.pendingSwitch =
      (img.failover.filterMap id).find? (fun x => (v.monitors.get x).lock == .locked)))

/-- R134: the vamp after a vamp entry test at a bar. -/
def EntersVamp (part : ClickPart) (before : Option VampState) (bar : Nat) (after : Option VampState) :
    Prop :=
  (∀ v, part.vamp = some v → before = none → bar = v.start →
    after = some { pass := 1, left := if v.repeats = 0 then none else some v.repeats }) ∧
  (part.vamp = none ∨ before ≠ none ∨ (∀ v, part.vamp = some v → bar ≠ v.start) → after = before)

/-- R138: the vamp after a vamp restore at a bar, with the pass handed. -/
def RestoresVamp (part : ClickPart) (pass : Option Nat) (before : Option VampState) (bar : Nat)
    (after : Option VampState) : Prop :=
  (∀ v, part.vamp = some v → v.start ≤ bar → bar ≤ v.start + v.length - 1 →
    after = some
      { pass := pass.getD 1
        left := if v.repeats = 0 then none else some (max 1 (v.repeats + 1 - pass.getD 1)) }) ∧
  (part.vamp = none ∨
    (∀ v, part.vamp = some v → bar < v.start ∨ v.start + v.length - 1 < bar) → after = before)

/-- R118, R119, R121: the beat timer as it starts at an instant: with the phase of a running shadow timer, or expired
at once, with the beat due set and, where the launch marker is set or the beat counted is at or above the meter,
DOWNBEAT with it. -/
def StartsBeatTimer (shadow : Shadow) (now : Nat) (k : Cke) : Prop :=
  (∀ p, shadow = .running p →
    k.beatTimer = some { pending := p, last := none, reload := k.tempo }) ∧
  (shadow = .lapsed ∨ shadow = .stopped →
    k.beatTimer = some
      { pending := now + 6000000 / k.tempo * 100000, last := some now, reload := k.tempo } ∧
    k.beatPosted = true ∧ k.dueSampled = false ∧
    (k.launch = true → k.downbeatPosted = true) ∧
    ∀ part, k.launch = false → k.part = some part →
      k.downbeatPosted = decide (part.meter ≤ k.beat))

/-! ## The patch ports (R99, R110, R112) -/

/-- R99: a buffer STAGED or LOADING for a pending target: of kind DELTA or RECALL for a CALL, RECALL for a RESUME. -/
def Suits (b : Buffer) (t : PendingTarget) : Prop :=
  (∃ k refs, b = .staged t.target k refs ∧ (t.kind = .call ∨ k = .recall)) ∨
    ∃ load due, b = .loading t.target load due ∧ (t.kind = .call ∨ load = .recall)

/-- R99, R112: a buffer whose port joins the recall for a pending target: under a hold one that owes a fire, for a
RESUME; or one that neither owes a fire nor suits the target, unless the target is a CALL's for the next cue. -/
def JoinsFor (b : Buffer) (t : PendingTarget) (cue : Nat) (hold : Bool) : Prop :=
  (b.owes = true ∧ hold = true ∧ t.kind = .resume) ∨
    (b.owes = false ∧ ¬ Suits b t ∧ (t.kind = .resume ∨ t.target ≠ cue + 1))

/-- R98, R99, R103, R112: PSQ is handed a pending target, with no scan running or queued: every port keeps its buffer,
begins a DELTA load, or joins the one recall scan for the target, and nothing else of it changes. -/
def HandsTarget (q q' : Psq) (t : PendingTarget) (cue : Nat) : Prop :=
  q'.target = some t ∧ q'.hold = q.hold ∧ (q.scan = none → q.queued = none → q'.queued = none ∧
    ∀ p, ∃ b, q'.ports.get p = { q.ports.get p with buffer := b } ∧
      ((q.ports.get p).buffer.owes = true → (q.hold = false ∨ t.kind = .call) →
        b = (q.ports.get p).buffer) ∧
      ((q.ports.get p).buffer.owes = false → Suits (q.ports.get p).buffer t →
        b = (q.ports.get p).buffer) ∧
      ((q.ports.get p).buffer.owes = false → ¬ Suits (q.ports.get p).buffer t → t.kind = .call →
        t.target = cue + 1 → b = .loading t.target (.delta 0 []) false) ∧
      (JoinsFor (q.ports.get p).buffer t cue q.hold →
        b = .loading t.target .recall false ∧ ∃ served, served.get p = true ∧ q'.scan = some
          { target := t.target, purpose := t.kind, cursor := t.target, served := served
            found := { a := List.replicate 16 none, b := List.replicate 16 none } }))

/-- R110: the hold takes a port's buffer away: a running or queued scan of purpose CALL serves it. -/
def LosesBuffer (q : Psq) (p : Port) : Prop :=
  (∃ sc, q.scan = some sc ∧ sc.purpose = .call ∧ sc.served.get p = true) ∨
    ∃ w, q.queued = some w ∧ w.purpose = .call ∧ w.served.get p = true

/-- R99, R104, R110: at an entry to STOPPED the pending target is withdrawn and the hold comes into force, which leaves
every port but for the buffers that scans of purpose CALL serve, and ends those scans; a hold in force already
changes nothing. -/
def BeginsHold (q q' : Psq) : Prop :=
  q'.hold = true ∧ q'.target = none ∧
  (q.hold = true → q'.ports = q.ports ∧ q'.scan = q.scan ∧ q'.queued = q.queued) ∧
  (q.hold = false →
    (∀ p, (LosesBuffer q p → q'.ports.get p = { q.ports.get p with buffer := .empty }) ∧
      (¬ LosesBuffer q p → q'.ports.get p = q.ports.get p)) ∧
    ((q.queued = none ∨ ∃ w, q.queued = some w ∧ w.purpose = .call) →
      q'.queued = none ∧
      (∀ sc, q.scan = some sc → sc.purpose = .resume → q'.scan = some sc) ∧
      (q.scan = none ∨ (∃ sc, q.scan = some sc ∧ sc.purpose = .call) → q'.scan = none)) ∧
    ∀ w, q.queued = some w → w.purpose = .resume →
      (q.scan = none ∨ ∃ sc, q.scan = some sc ∧ sc.purpose = .call) →
      q'.queued = none ∧ q'.scan = some
        { target := w.target, purpose := .resume, cursor := w.target, served := w.served
          found := { a := List.replicate 16 none, b := List.replicate 16 none } })

/-! ## The operator's inputs (R159, R195) -/

/-- R195: the line's filtered level changes from deasserted to asserted. -/
def Presses (b : Button) (released : Bool) (s : State) : Prop :=
  s.con.buttons.get b = false ∨ released = true

/-- The station with a line's filtered level asserted, and nothing else changed. -/
def State.pressed (b : Button) (s : State) : State :=
  { s with con := { s.con with buttons := s.con.buttons.assert b } }

/-- R159, R160: a command that makes a stop request at an instant, with its reason and its detail. -/
def RequestsStop (c : Instr) (s : State) (reason : StopReason) (detail : Byte) (t : Nat) : Prop :=
  (∃ released, c = .stopPress released t ∧ Presses .stop released s ∧ reason = .button ∧
    detail = 0) ∨
    (c = .safetyAssertion t ∧ s.con.safetyLine = false ∧ reason = .safety ∧ detail = 0) ∨
    (c = .consoleStop detail t ∧ reason = .console)

/-- R35: a break request at an instant is kept in JOINED, unless a break is being driven then; one already waiting for
its boundary waits on. -/
def KeepsBreak (l : Le) (now : Nat) : Bool :=
  l.breakPending ||
    (l.state == .joined && !(l.breakDriving.isSome && decide (now < l.breakUntil)))

/-- R160, R191: what a stop request leaves at CON: the SAFETY level set, the console's STOP answered OK. -/
def StopTold (c : Instr) (u : State) : Prop :=
  (∀ t, c = .safetyAssertion t → u.con.safetyLine = true) ∧
    ∀ detail t, c = .consoleStop detail t → u.con.reply = [0] ∧ u.con.frame = .other

end Sys2Proof.Machine

namespace Sys2Proof

/-! ## The image (R2 to R11, R14) -/

/-- R3, R5, R6: every field of a cue record lies in its range. -/
def Cue.inRange (c : Cue) : Prop :=
  1 ≤ c.label.length ∧ c.label.length ≤ 4 ∧ (∀ b ∈ c.label, 32 ≤ b.toNat ∧ b.toNat ≤ 126) ∧
    1 ≤ c.startBar ∧ c.startBar ≤ 9999 ∧
    (∀ p, c.click = some p → 300 ≤ p.tempo ∧ p.tempo ≤ 3000 ∧ 1 ≤ p.meter ∧ p.meter ≤ 16 ∧
      1 ≤ p.subdivision ∧ p.subdivision ≤ 4 ∧
      (∀ r, p.ramp = some r → 300 ≤ r.target ∧ r.target ≤ 3000 ∧ 1 ≤ r.length ∧ r.length ≤ 64) ∧
      ∀ v, p.vamp = some v → 1 ≤ v.length ∧ v.length ≤ 16 ∧ v.repeats ≤ 255) ∧
    ∀ g, c.autoGo = some g → 1 ≤ g.bar ∧ g.bar ≤ 9999

/-- R11: every field of a patch action lies in its range. -/
def PatchAction.inRange (a : PatchAction) : Prop :=
  a.port ≠ none ∧ a.slot ≤ 15 ∧ 1 ≤ a.bytes.length ∧ a.bytes.length ≤ 8 ∧
    ∀ t, a.settle = some t → t ≤ 255

/-- R2, R3, R5, R6, R8, R10, R11: every field that code FIELD checks lies in its range. -/
def Image.inRange (img : Image) : Prop :=
  img.patience ≤ 63 ∧ 16 ≤ img.resumePatience ∧ img.resumePatience ≤ 255 ∧
    1 ≤ img.ranking.length ∧ img.ranking.length ≤ 4 ∧ (∀ k ∈ img.ranking, k < 24) ∧
    (∀ c ∈ img.cues, Cue.inRange c) ∧ img.station < 24 ∧ img.pool.length ≤ 1024 ∧
    (∀ a ∈ img.pool, PatchAction.inRange a) ∧ (∀ e ∈ img.entries, e.video ≠ some .other) ∧
    100 ≤ img.frameInterval ∧ img.frameInterval ≤ 500

/-- R3: a cue does not start below the cue before it. -/
def Image.ordered (img : Image) (k : Nat) : Prop := 0 < k → img.startBar (k - 1) ≤ img.startBar k

/-- R10: an entry names a cue of the table, and alone. -/
def Image.names (img : Image) (e : CueEntry) : Prop :=
  e.cue < img.cues.length ∧ (img.entries.filter (fun x => x.cue == e.cue)).length ≤ 1

/-- R10: an entry's patch part counts 0, or at most 16 actions of the pool. -/
def Image.reaches (img : Image) (e : CueEntry) : Prop :=
  ∀ p, e.patch = some p → p.count = 0 ∨ (p.count ≤ 16 ∧ p.first + p.count ≤ img.pool.length)

/-- R5: a cue's vamp starts at or after the cue's start bar and ends by bar 9999. -/
def Image.vampFits (img : Image) (k : Nat) : Prop :=
  ∀ p v, img.clickOf k = some p → p.vamp = some v →
    img.startBar k ≤ v.start ∧ v.start + v.length - 1 ≤ 9999

/-- R6: a cue's auto-GO point has a click part, a beat of its meter, and a bar from the start bar on outside
the vamp. -/
def Image.autoGoFits (img : Image) (k : Nat) : Prop :=
  ∀ g, img.autoGoOf k = some g → ∃ p, img.clickOf k = some p ∧ 1 ≤ g.beat ∧ g.beat ≤ p.meter ∧
    img.startBar k ≤ g.bar ∧
    ∀ v, p.vamp = some v → g.bar < v.start ∨ v.start + v.length - 1 < g.bar

/-- R14: the condition that each code of the fields, 4 to 16, checks. -/
def Image.passes (img : Image) : Machine.LoadFault → Prop
  | .length | .sum | .format => True
  | .rate =>
    (img.lineRate = 250000 ∨ img.lineRate = 500000 ∨ img.lineRate = 1000000) ∧
      ∀ p, img.portRates.get p = 19200 ∨ img.portRates.get p = 38400 ∨
        img.portRates.get p = 57600 ∨ img.portRates.get p = 115200
  | .period => 48 ≤ img.period ∧ img.period ≤ 255
  | .cueCount => 2 ≤ img.cues.length ∧ img.cues.length ≤ 512
  | .field => img.inRange
  | .order => ∀ k, k < img.cues.length → img.ordered k
  | .cue0 => img.clickOf 0 = none ∧ img.autoGoOf 0 = none ∧
      ∀ e ∈ img.entries, e.cue = 0 → ∀ p, e.patch = some p → p.count = 0
  | .cueRef => ∀ e ∈ img.entries, img.names e
  | .patchRef => ∀ e ∈ img.entries, img.reaches e
  | .vamp => ∀ k, k < img.cues.length → img.vampFits k
  | .autoGo => ∀ k, k < img.cues.length → img.autoGoFits k
  | .ranking => img.ranking.Nodup
  | .role => (img.roles.caller = true → img.callers.getLsbD img.station = true) ∧
      (img.roles.videoCritical = true → img.roles.video = true)
  | .failover => img.failover.length = 3 ∧ ∀ x, some x ∈ img.failover

end Sys2Proof
end

