-- ==== Sys2Proof/Certificates/Slice0/Obligations.lean ====
section
/-! DEFINITION. Certificates/Slice0/Obligations.lean: the statements for the provers. -/

open Sys2Proof Sys2Proof.Machine

/-! ## The step and the resets -/

/-- The step takes the command at the front of the queue; an empty queue idles (the model's choice, log
entry 2). -/
def Obligations.StepTakesFrontCommand : Prop :=
  (∀ (s : State) (c : Instr) (rest : List Instr), s.pending = c :: rest →
    step s = exec c { s with pending := rest }) ∧
  ∀ s : State, s.pending = [] → step s = .next s

/-- R12, R46, R89, R113, R140, R157, R180, R194, R195: the station after a cold reset, and COLD_RESET. What stays
(the waiting commands, the instant, the free-choice counter and what is known of the agreed arrangement) is the
model's choice (log entries 5, 35, 36). -/
def Obligations.ColdResetValues : Prop :=
  (State.reset.image = none ∧ State.reset.con.loader = .loading ∧
    State.reset.con.received = [] ∧ State.reset.con.overflow = false ∧
    State.reset.con.notices.map Notice.bytes = [[1, 0, 0, 0, 255, 1, 0]] ∧
    State.reset.con.lamp = false ∧ State.reset.con.attendFlag = false ∧
    State.reset.con.safetyLine = false ∧ State.reset.con.attendLine = false ∧
    (∀ b, State.reset.con.buttons.get b = false) ∧
    State.reset.le.state = .offline ∧ State.reset.le.drive = [] ∧ State.reset.le.roundCount = 0 ∧
    State.reset.le.lastMap = 0 ∧ State.reset.le.thisMap = 0 ∧ State.reset.le.blind = false ∧
    State.reset.le.clashCount = 0 ∧ State.reset.le.lineFaultCount = 0 ∧
    State.reset.le.shortCount = 0 ∧ State.reset.le.badCount = 0 ∧ State.reset.le.queue = [] ∧
    State.reset.le.beatSource = none ∧ State.reset.le.mismatch = 0) ∧
  (State.reset.spu.cue = 0 ∧ State.reset.spu.showState = .preshow ∧
    State.reset.spu.suspect = true ∧ State.reset.spu.late = false ∧
    State.reset.spu.launchPending = false ∧ State.reset.spu.lastTransition = none ∧
    State.reset.spu.proposal = none ∧ State.reset.spu.observed = none ∧
    State.reset.spu.armed = none ∧ State.reset.spu.dissent = false ∧
    State.reset.spu.ownStop = false ∧ State.reset.spu.stopPosted = false ∧
    State.reset.spu.origin = [] ∧ State.reset.spu.snapshot = none ∧
    State.reset.spu.restart = none ∧ State.reset.spu.restartRecall = false) ∧
  (∀ p, (State.reset.psq.ports.get p).state = .idle ∧ (State.reset.psq.ports.get p).list = [] ∧
    (State.reset.psq.ports.get p).buffer = .empty ∧
    (State.reset.psq.ports.get p).slots = List.replicate 16 none) ∧
  (State.reset.psq.scan = none ∧ State.reset.psq.target = none ∧ State.reset.psq.hold = false ∧
    State.reset.psq.notReady = false ∧ State.reset.cke.tempo = 1200 ∧
    State.reset.cke.override = none ∧ State.reset.cke.bar = 1 ∧ State.reset.cke.beat = 1 ∧
    State.reset.cke.vamp = none ∧ State.reset.cke.beatTimer = none ∧
    State.reset.cke.shadow = .stopped ∧ State.reset.cke.tap = none) ∧
  (∀ i, State.reset.vsl.monitors.get i = Monitor.cold) ∧
  (State.reset.vsl.live = none ∧ State.reset.vsl.select = 3 ∧ State.reset.vsl.override = none ∧
    State.reset.vsl.camfail = false ∧ State.reset.vsl.pitCamfail = false ∧
    State.reset.vsl.composer = .idle ∧ State.reset.vsl.slate = none) ∧
  ∀ s : State, exec .coldReset s =
    .next { State.reset with
      pending := s.pending, now := s.now, draws := s.draws, readings := s.readings }

/-! ## Loading (Chapter 1) -/

/-- R13: the bytes after the declared length are summed, but for the check value, and the last byte ends
the read; the first two bytes are the declared length, and one out of range ends the read with LENGTH. -/
def Obligations.BootBytesAreTaken : Prop :=
  (∀ (s : State) (b : Byte) (n : Nat), s.con.loader = .loading → s.con.declared = some n →
    64 ≤ n → n ≤ 32768 → s.con.received.length < n →
    exec (.byteArrival b) s = .next { s with con := { s.con with
      received := s.con.received ++ [b]
      sum := if s.con.received.length + 2 < n then s.con.sum + BitVec.ofNat 16 b.toNat
        else s.con.sum
      loader := if s.con.received.length + 1 = n then .checking else .loading } }) ∧
  (∀ (s : State) (b : Byte), s.con.loader = .loading → s.con.declared = none →
    s.con.received = [] →
    exec (.byteArrival b) s = .next { s with con := { s.con with
      received := [b], sum := s.con.sum + BitVec.ofNat 16 b.toNat } }) ∧
  ∀ (s : State) (hi lo : Byte), s.con.loader = .loading → s.con.declared = none →
    s.con.received = [hi] →
    exec (.byteArrival lo) s = .next { s with con := { s.con with
      received := [hi, lo], sum := s.con.sum + BitVec.ofNat 16 lo.toNat
      declared := some (hi.toNat * 256 + lo.toNat)
      loader := if 64 ≤ hi.toNat * 256 + lo.toNat ∧ hi.toNat * 256 + lo.toNat ≤ 32768
        then .loading else .checking
      lengthFault := if 64 ≤ hi.toNat * 256 + lo.toNat ∧ hi.toNat * 256 + lo.toNat ≤ 32768
        then s.con.lengthFault else true } }

/-- R14, R16, R39, R89, R98, R129, R142, R157, R159, R160, R196: image accepted with SAFETY deasserted; and with
SAFETY asserted, which raises a stop with reason SAFETY. The received bytes read as the image, and go on reading so;
bytes that read otherwise are not accepted as it. That what bytes read as is a free function of them, which the
model records, is log entry 5. -/
def Obligations.ImageAcceptedStartsShow : Prop :=
  (∀ (s : State) (t : Nat) (img : Image), s.con.loader = .checking →
    ReadsAs s (.fields img) → s.con.loadFault (.fields img) = none →
    s.con.safetyLine = false → s.con.together = [] →
    Completes (.imageAccepted t img) s (fun u =>
      u.image = some img ∧ u.con.loader = .accepted ∧ u.con.notices = s.con.notices ∧
      u.con.attendPosted = (s.con.attendLine || s.con.attendFlag) ∧
      u.le.state = .listen ∧ u.le.localRunning = false ∧ u.le.hunting = true ∧
      u.le.roundTimer = some (max s.now t + img.roundTime) ∧ u.le.queue = [] ∧
      u.spu = Spu.cold ∧
      u.psq.ports.a.buffer = .loading 1 (.delta 0 []) false ∧
      u.psq.ports.b.buffer = .loading 1 (.delta 0 []) false ∧
      u.cke.bar = img.startBar 0 ∧ u.cke.beat = 1 ∧
      u.vsl.table = sourceTable img ∧ u.vsl.live = none ∧ u.vsl.camfail = img.roles.video ∧
      u.vsl.desired = (if img.roles.video then some .front else none) ∧
      u.pending = s.pending ∧ RecordsReading (.fields img) s u)) ∧
  (∀ (s : State) (t : Nat) (img : Image), s.con.loader = .checking →
    ReadsAs s (.fields img) → s.con.loadFault (.fields img) = none →
    s.con.safetyLine = true → s.con.together = [] →
    s.con.notices.length < 32 →
    Completes (.imageAccepted t img) s (fun u =>
      u.image = some img ∧ u.con.loader = .accepted ∧
      u.con.notices = s.con.notices ++
        [{ kind := .stop, round := 0, cue := 0, station := img.station, detail1 := 1, detail2 := 2 }] ∧
      u.spu.showState = .stopped ∧ u.spu.ownStop = true ∧ u.spu.stopPosted = true ∧
      u.le.state = .listen ∧ u.le.breakPending = false ∧
      u.le.queue.map Entry.message = [.halt { reason := .safety, detail := 0 }] ∧
      u.psq.hold = true ∧ RecordsReading (.fields img) s u)) ∧
  ∀ (s : State) (t : Nat) (img : Image), ¬ ReadsAs s (.fields img) →
    exec (.imageAccepted t img) s = .next s

/-- R14, R15: the first check that fails, under what the received bytes read as, is reported in an IMAGE notice, and
the loader enters FAILED. Bytes once read one way fail by no other reading. That what bytes read as is a free
function of them, which the model records, is log entry 5. -/
def Obligations.FailedLoadPostsImage : Prop :=
  (∀ (s : State) (reading : Reading) (f : Failure), s.con.loader = .checking →
    ReadsAs s reading → s.con.loadFault reading = some f → s.con.together = [] →
    exec (.failed reading) s = .next { s with
      readings := if s.readings.lookup s.con.received = none
        then s.readings ++ [(s.con.received, reading)] else s.readings
      con := { s.con with loader := .failed }.append
        { kind := .image, round := 0, cue := f.cue, station := noticeStation reading f,
          detail1 := f.fault.code, detail2 := f.detail } }) ∧
  ∀ (s : State) (reading : Reading), ¬ ReadsAs s reading → exec (.failed reading) s = .next s

/-- R14, R2, R3, R5 to R8, R10, R11: the checks of the fields in the order of their codes. The first failing one
is the fault, with the lowest failing cue where it names one, and the detail of ROLE and of RANKING; before them
LENGTH, SUM and FORMAT. The model's choices here: FORMAT is the reading `.unformed` of the received bytes (log entry
5), a patch part of cue 0 that counts no action passes (log entry 37), the rank position of RANKING (log entry
41), and that an entry with neither part passes (log entry 51). -/
def Obligations.ImageChecksFindFirstFault : Prop :=
  (∀ img : Image, fieldFault img = none ↔ ∀ g, img.passes g) ∧
  (∀ (img : Image) (f : Failure), fieldFault img = some f →
    ¬ img.passes f.fault ∧ (∀ g, g.code < f.fault.code → img.passes g) ∧
    (f.fault = .order → 0 < f.cue ∧ f.cue < img.cues.length ∧ ¬ img.ordered f.cue ∧
      ∀ k, k < f.cue → img.ordered k) ∧
    (f.fault = .vamp → f.cue < img.cues.length ∧ ¬ img.vampFits f.cue ∧
      ∀ k, k < f.cue → img.vampFits k) ∧
    (f.fault = .autoGo → f.cue < img.cues.length ∧ ¬ img.autoGoFits f.cue ∧
      ∀ k, k < f.cue → img.autoGoFits k) ∧
    (f.fault = .cueRef → (∃ e ∈ img.entries, e.cue = f.cue ∧ ¬ img.names e) ∧
      ∀ e ∈ img.entries, ¬ img.names e → f.cue ≤ e.cue) ∧
    (f.fault = .patchRef → (∃ e ∈ img.entries, e.cue = f.cue ∧ ¬ img.reaches e) ∧
      ∀ e ∈ img.entries, ¬ img.reaches e → f.cue ≤ e.cue) ∧
    (f.fault = .role → f.detail =
      if img.roles.caller = true ∧ img.callers.getLsbD img.station = false then 1 else 2) ∧
    (f.fault = .ranking → 1 ≤ f.detail ∧ (img.ranking.take (f.detail - 1)).Nodup ∧
      ¬ (img.ranking.take f.detail).Nodup) ∧
    (f.fault ∉ [LoadFault.order, .vamp, .autoGo, .cueRef, .patchRef] → f.cue = 0) ∧
    (f.fault ∉ [LoadFault.role, .ranking] → f.detail = 0)) ∧
  ∀ (c : Con) (reading : Reading), c.loadFault reading =
    if c.lengthFault = true then some { fault := .length, cue := 0, detail := 0 }
    else if c.sum ≠ c.checkValue then some { fault := .sum, cue := 0, detail := 0 }
    else match reading with
      | .fields img => fieldFault img
      | .unformed _ => some { fault := .format, cue := 0, detail := 0 }

/-! ## Rounds (Chapter 2) -/

/-- R24, R23: an edge with no round in progress opens a round; hunting, only after 13 recessive bits. -/
def Obligations.ObservedEdgeOpensRound : Prop :=
  ∀ (s : State) (img : Image) (t recessive : Nat), s.image = some img →
    (s.le.state = .joined ∨ s.le.state = .listen) → s.le.round = none → s.le.breakDriving = none →
    Completes (.roundOpening t recessive) s (fun u =>
      u.le.round =
        (if s.le.hunting = true ∧ recessive < 13 then none else some (Round.opened t false 0)) ∧
      u.le.blind = (if s.le.hunting = true ∧ recessive < 13 then s.le.blind else false) ∧
      u.le.hunting = s.le.hunting ∧ u.le.silenceCount = 0 ∧ u.le.roundTimer = s.le.roundTimer ∧
      u.le.roundCount = s.le.roundCount ∧ u.le.drive = s.le.drive ∧ u.now = max s.now t ∧
      OnlyLine s u)

/-- R25, R23: at the expiry in JOINED a MARK with the round count plus 1 is driven from the expiry on and opens
the round; with a round in progress nothing is driven. -/
def Obligations.ExpiryDrivesMark : Prop :=
  ∀ (s : State) (img : Image) (silent : Bool) (e : Nat), s.image = some img →
    s.le.state = .joined → s.le.localRunning = false → s.le.roundTimer = some e →
    s.le.breakDriving = none → s.con.together = [] →
    Completes (.roundTimerExpiry silent) s (fun u =>
      u.le.drive =
        (if s.le.round = none then [charBitsOf .mark (s.le.roundCount + 1)] else s.le.drive) ∧
      u.le.driveFrom = (if s.le.round = none then e else s.le.driveFrom) ∧
      u.le.round =
        (if s.le.round = none then
          some (Round.opened e true (charBitsOf .mark (s.le.roundCount + 1)))
         else s.le.round) ∧
      u.le.state = .joined ∧ u.le.roundCount = s.le.roundCount ∧ u.le.queue = s.le.queue ∧
      u.now = max s.now e ∧ u.spu = s.spu ∧ u.psq = s.psq ∧ u.vsl = s.vsl ∧ u.con = s.con ∧
      SameClick s.cke u.cke ∧ SameHost s u)

/-- R39, R41, R42, R45: in LISTEN an expiry of the joining timer with no round in progress restarts it and counts
silence; the third silent one drives a MARK with the round count plus 1, enters JOINED, ends local running,
makes the station suspect and posts LINE (2, 2). -/
def Obligations.SilenceIsCounted : Prop :=
  (∀ (s : State) (img : Image) (silent : Bool) (e : Nat), s.image = some img →
    s.le.state = .listen → s.le.round = none → s.con.together = [] →
    (silent = true → s.le.dominantSeen = false → s.le.silenceCount < 2) →
    (s.le.localRunning = false → s.le.roundTimer = some e →
      Completes (.roundTimerExpiry silent) s (fun u =>
        u.le = { s.le with
          silenceCount := if silent && !s.le.dominantSeen then s.le.silenceCount + 1 else 0
          dominantSeen := false, roundTimer := some (e + img.roundTime), lastExpiry := some e } ∧
        u.spu = s.spu ∧ u.psq = s.psq ∧ u.vsl = s.vsl ∧ u.con = s.con ∧ SameHost s u)) ∧
    (s.le.localRunning = true → s.le.listenTimer = some e →
      Completes (.listenTimerExpiry silent) s (fun u =>
        u.le = { s.le with
          silenceCount := if silent && !s.le.dominantSeen then s.le.silenceCount + 1 else 0
          dominantSeen := false, listenTimer := some (e + img.roundTime), lastListen := some e } ∧
        u.spu = s.spu ∧ u.psq = s.psq ∧ u.vsl = s.vsl ∧ u.con = s.con ∧ SameHost s u))) ∧
  ∀ (s : State) (img : Image) (e : Nat) (c : Instr), s.image = some img →
    s.le.state = .listen → s.le.round = none → s.con.together = [] → s.le.dominantSeen = false →
    s.le.silenceCount = 2 → s.le.breakDriving = none →
    ((c = .roundTimerExpiry true ∧ s.le.localRunning = false ∧ s.le.roundTimer = some e) ∨
      (c = .listenTimerExpiry true ∧ s.le.localRunning = true ∧ s.le.listenTimer = some e)) →
    Completes c s (fun u =>
      u.le.state = .joined ∧ u.le.localRunning = false ∧ u.le.localRound = none ∧
      u.le.listenTimer = none ∧ u.le.readBackRun = 0 ∧ u.le.hunting = false ∧
      u.le.drive = [charBitsOf .mark (s.le.roundCount + 1)] ∧ u.le.driveFrom = e ∧
      u.le.round = some (Round.opened e true (charBitsOf .mark (s.le.roundCount + 1))) ∧
      u.le.roundTimer = some (e + img.roundTime) ∧ u.le.queue = s.le.queue ∧
      u.spu = { s.spu with suspect := true, refWait := 0 } ∧
      u.con = s.conAfter .line img.station 2 2 ∧
      u.psq = s.psq ∧ u.vsl = s.vsl ∧ SameHost s u)

/-- R44, R45: in local running the round timer opens a local round; the 16th in ISOLATED enters LISTEN with
local running still in force. -/
def Obligations.ExpiryOpensLocalRound : Prop :=
  ∀ (s : State) (img : Image) (silent : Bool) (e : Nat), s.image = some img →
    s.le.localRunning = true → s.le.roundTimer = some e → s.con.together = [] →
    (s.le.state = .isolated ∨ s.le.state = .listen) →
    Completes (.roundTimerExpiry silent) s (fun u =>
      u.le.localRound = some { edge := e, stage := .opening } ∧
      u.le.roundCount = s.le.roundCount + 1 ∧ u.le.roundTimer = some (e + img.roundTime) ∧
      u.le.localRunning = true ∧ u.le.drive = s.le.drive ∧
      (s.le.state = .listen → u.le.state = .listen ∧ u.le.isolationCount = s.le.isolationCount) ∧
      (s.le.state = .isolated → u.le.isolationCount = s.le.isolationCount + 1 ∧
        (s.le.isolationCount < 15 → u.le.state = .isolated) ∧
        (15 ≤ s.le.isolationCount → u.le.state = .listen ∧ u.le.hunting = true ∧
          u.le.cleanRun = 0 ∧ u.le.silenceCount = 0 ∧
          u.le.listenTimer = some (e + img.roundTime))) ∧
      u.spu = s.spu ∧ u.psq = s.psq ∧ u.vsl = s.vsl ∧ u.con = s.con ∧ SameHost s u)

/-- R22, R26: at mark seen a MARK received good is adopted as the round count; any other opening that stands (none
taken, no start bit, a break or a framing error, a parity error, another kind outside hunting) advances it by 1,
modulo 256, and makes the round blind, as an opening off period does; a break or a framing error makes the receiver
resynchronise; the round timer runs P from the opening edge; an opening withdrawn while hunting leaves no round. That
the expiries which the period is judged by are the last one taken and the pending one is log entry 10. In local running
the listen timer takes the timing (R45), and the round count stays with the local rounds (log entry 40). -/
def Obligations.MarkSeenJudgesOpening : Prop :=
  (∀ (s : State) (img : Image) (r : Round) (w : Samples), s.image = some img →
    (s.le.state = .joined ∨ s.le.state = .listen) → s.le.localRunning = false →
    s.le.round = some r → r.stage = .opening →
    (∀ d, s.le.resync = false → receiveChar w = some { kind := .mark, data := d, error := none } →
      Completes (.markSeen w) s (fun u =>
        u.le.roundCount = d ∧ u.le.hunting = false ∧
        u.le.roundTimer = some (r.edge + img.roundTime) ∧
        (∃ x, u.le.round = some x ∧ x.stage = .marked ∧ x.edge = r.edge ∧ x.markGood = true ∧
          (x.onPeriod = true ↔ OnPeriod img s.le r)) ∧
        (OnPeriod img s.le r → u.le.blind = s.le.blind) ∧
        (¬ OnPeriod img s.le r → u.le.blind = true) ∧ OnlyLine s u)) ∧
    (s.le.resync = true ∨ w.getLsbD 0 = false ∨ w.getLsbD 12 = true ∨
        (∃ k d, receiveChar w = some { kind := k, data := d, error := some .parity }) →
      Completes (.markSeen w) s (fun u =>
        u.le.resync = (s.le.resync || (w.getLsbD 0 && w.getLsbD 12)) ∧
        u.le.roundCount = s.le.roundCount + 1 ∧ u.le.hunting = false ∧ u.le.blind = true ∧
        u.le.roundTimer = some (r.edge + img.roundTime) ∧
        u.le.round.map Round.markGood = some false ∧ OnlyLine s u)) ∧
    (∀ k d, k ≠ .mark → s.le.resync = false →
      receiveChar w = some { kind := k, data := d, error := none } →
      Completes (.markSeen w) s (fun u =>
        (s.le.hunting = true → u.le.round = none ∧ u.le.hunting = true ∧
          u.le.roundCount = s.le.roundCount ∧ u.le.roundTimer = s.le.roundTimer) ∧
        (s.le.hunting = false → u.le.roundCount = s.le.roundCount + 1 ∧ u.le.hunting = false ∧
          u.le.blind = true ∧ u.le.roundTimer = some (r.edge + img.roundTime) ∧
          u.le.round.map Round.markGood = some false) ∧ OnlyLine s u))) ∧
  ∀ (s : State) (img : Image) (r : Round) (d : Byte) (w : Samples), s.image = some img →
    s.le.state = .listen → s.le.localRunning = true → s.le.round = some r → r.stage = .opening →
    s.le.resync = false → receiveChar w = some { kind := .mark, data := d, error := none } →
    Completes (.markSeen w) s (fun u =>
      u.le.roundCount = s.le.roundCount ∧ u.le.hunting = false ∧
      u.le.listenTimer = some (r.edge + img.roundTime) ∧ u.le.roundTimer = s.le.roundTimer ∧
      u.le.localRound = s.le.localRound ∧
      (∃ x, u.le.round = some x ∧ x.stage = .marked ∧ x.edge = r.edge ∧ x.markGood = true ∧
        (x.onPeriod = true ↔ OnPeriod img s.le r)) ∧ OnlyLine s u)

/-- R27, R44: at a vote field start the posted contributions (STOP and DISSENT of SPU, NOTREADY of PSQ, BEAT and
DOWNBEAT of CKE, CAMFAIL of VSL, ATTEND of CON) are sampled, in JOINED driven with the
station's presence bit, and a beat due is marked as sampled. -/
def Obligations.VoteFieldStartSamples : Prop :=
  (∀ (s : State) (img : Image) (r : Round) (posted : Contributions), Posts s posted →
    s.image = some img → s.le.localRunning = false →
    s.le.round = some r → r.stage = .marked → s.le.breakDriving = none →
    (s.le.state = .joined ∨ s.le.state = .listen) →
    Completes .voteFieldStart s (fun u =>
      u.le = { s.le with
        sampled := posted
        drive := if s.le.state = .joined then voteChars posted img.station else s.le.drive
        driveFrom := if s.le.state = .joined then r.edge + 1 * img.charTime else s.le.driveFrom
        round := some { r with
          stage := .voting
          votesDriven := if s.le.state = .joined then voteChars posted img.station
            else r.votesDriven } } ∧
      u.now = max s.now (r.edge + 1 * img.charTime) ∧
      u.cke = { s.cke with dueSampled := s.cke.beatPosted } ∧
      u.spu = s.spu ∧ u.psq = s.psq ∧ u.vsl = s.vsl ∧ u.con = s.con ∧ SameHost s u)) ∧
  ∀ (s : State) (img : Image) (r : LocalRound) (posted : Contributions), Posts s posted →
    s.image = some img → s.le.localRunning = true →
    s.le.localRound = some r → r.stage = .opening →
    Completes .localVoteFieldStart s (fun u =>
      u.le = { s.le with
        sampled := posted, localRound := some { r with stage := .voting } } ∧
      u.now = max s.now (r.edge + 1 * img.charTime) ∧
      u.cke = { s.cke with dueSampled := s.cke.beatPosted } ∧
      u.spu = s.spu ∧ u.psq = s.psq ∧ u.vsl = s.vsl ∧ u.con = s.con ∧ SameHost s u)

/-- R20 to R22, R27, R62: a character driven and sampled alone is received good with its kind and data; of
the four vote characters of a station, V0 gives its contributions and V1 to V3 the station alone. -/
def Obligations.DrivenCharactersAreReceived : Prop :=
  (∀ (k : CharKind) (d : Byte),
    receiveChar (charBitsOf k d) = some { kind := k, data := d, error := none }) ∧
  ∀ (c : Contributions) (k : Nat), k < 24 →
    let chars := (voteChars c k).map receiveChar
    chars.all goodVote = true ∧ Contributions.ofByte (dataOf (chars.getD 0 none)) = c ∧
      (dataOf (chars.getD 0 none)).getLsbD 7 = false ∧ mapOf chars = stationSet k

/-- R31: slot k belongs to entry (3c + k) modulo n of the present stations in ascending number. -/
def Obligations.SlotOwnersFollowCount : Prop :=
  (∀ (m : StationSet) (c k : Nat), k < 3 → stationsOf m ≠ [] →
    (slotOwners m c)[k]? = (stationsOf m)[(3 * c + k) % (stationsOf m).length]?) ∧
  ∀ c, slotOwners 0 c = []

/-- R60: at a clean round's vote field complete the station handed on as reference station and beat source is the
first of the tempo ranking in the round's presence map; with none of them present the lowest-numbered station
present; with an empty map none. -/
def Obligations.ReferenceIsChosen : Prop :=
  ∀ (s : State) (img : Image) (r : Round) (d0 d1 d2 d3 : Byte) (v0 v1 v2 v3 : Samples),
    s.image = some img → (s.le.state = .joined ∨ s.le.state = .listen) → s.le.localRunning = false →
    CleanRound r s d0 d1 d2 d3 [v0, v1, v2, v3] →
    (∀ i k : Nat, img.ranking[i]? = some k → (presenceMap d1 d2 d3).getLsbD k = true →
      (∀ j x : Nat, j < i → img.ranking[j]? = some x → (presenceMap d1 d2 d3).getLsbD x = false) →
      Completes (.voteFieldComplete v0 v1 v2 v3) s (fun u => u.le.beatSource = some k)) ∧
    (∀ k : Nat, (∀ x ∈ img.ranking, (presenceMap d1 d2 d3).getLsbD x = false) →
      (presenceMap d1 d2 d3).getLsbD k = true →
      (∀ j : Nat, j < k → (presenceMap d1 d2 d3).getLsbD j = false) →
      Completes (.voteFieldComplete v0 v1 v2 v3) s (fun u => u.le.beatSource = some k)) ∧
    (presenceMap d1 d2 d3 = 0 →
      Completes (.voteFieldComplete v0 v1 v2 v3) s (fun u => u.le.beatSource = none))

/-- R28, R29, R31, R37, R60, R61: a clean round makes its presence map the last one and chooses the slot owners
and the beat source; where the station drove in it, its read-back failure run returns to 0, or rises by 1 where its
read-back fails (the third failure in a row is StationIsIsolated); whatever it decides, it leaves the round count, the reported counts, the video shown, the
slot images and the inputs as they are. -/
def Obligations.CleanRoundChooses : Prop :=
  ∀ (s : State) (img : Image) (r : Round) (d0 d1 d2 d3 : Byte) (v0 v1 v2 v3 : Samples),
    s.image = some img → s.le.state = .joined → s.le.localRunning = false →
    CleanRound r s d0 d1 d2 d3 [v0, v1, v2, v3] →
    Completes (.voteFieldComplete v0 v1 v2 v3) s (fun u =>
      u.le.state = .joined ∧ u.le.blind = false ∧
      u.le.round = some { r with stage := .judged, clean := true } ∧
      u.le.thisMap = presenceMap d1 d2 d3 ∧ u.le.lastMap = presenceMap d1 d2 d3 ∧
      u.le.owners = slotOwners (presenceMap d1 d2 d3) s.le.roundCount.toNat ∧
      u.le.beatSource = img.reference (presenceMap d1 d2 d3) ∧
      u.le.readBackRun =
        (if r.drove = true then
          (if r.failsReadBack [v0, v1, v2, v3] = true then s.le.readBackRun + 1 else 0)
         else s.le.readBackRun) ∧
      u.spu.dissent = false ∧ u.spu.callWindow = none ∧ u.spu.resumeWindow = none ∧
      u.vsl.pitCamfail = d0.getLsbD 5 ∧
      u.con.lamp = (if img.roles.sm then d0.getLsbD 6 else s.con.lamp) ∧
      u.le.roundCount = s.le.roundCount ∧ u.le.clashCount = s.le.clashCount ∧
      u.le.lineFaultCount = s.le.lineFaultCount ∧ u.le.shortCount = s.le.shortCount ∧
      u.le.badCount = s.le.badCount ∧ u.le.mismatch = s.le.mismatch ∧
      u.vsl.live = s.vsl.live ∧ u.vsl.monitors = s.vsl.monitors ∧
      u.vsl.composer = s.vsl.composer ∧ u.vsl.slate = s.vsl.slate ∧ u.cke.tap = s.cke.tap ∧
      (∀ p, (u.psq.ports.get p).slots = (s.psq.ports.get p).slots) ∧
      (img.roles.videoCritical = false → u.le.queue = s.le.queue) ∧
      u.con.loader = s.con.loader ∧ u.con.safetyLine = s.con.safetyLine ∧ SameHost s u)

/-- R28, R30, R74, R122: a blind round, whatever makes it blind, keeps the presence map and the beat source, gives
no slot an owner and makes the station suspect; proposals and their patience stay, and no beat is counted but
by a station that drove BEAT in the round, which counts what it drove. -/
def Obligations.BlindRoundDecidesNothing : Prop :=
  ∀ (s : State) (img : Image) (r : Round) (v0 v1 v2 v3 : Samples), s.image = some img →
    s.le.state = .joined → s.le.localRunning = false → s.le.round = some r → r.stage = .voting →
    BlindRound r s [v0, v1, v2, v3] →
    (r.drove = true → r.failsReadBack [v0, v1, v2, v3] = true → s.le.readBackRun < 2) →
    s.con.together = [] →
    (s.clickRuns = false ∨ r.votesDriven = [] ∨ s.le.sampled.beat = false →
      Completes (.voteFieldComplete v0 v1 v2 v3) s (fun u =>
        u.le.blind = true ∧ u.le.lastMap = s.le.lastMap ∧ u.le.beatSource = s.le.beatSource ∧
        u.le.owners = [] ∧ u.le.state = .joined ∧
        u.le.readBackRun =
          (if r.drove = true then
            (if r.failsReadBack [v0, v1, v2, v3] = true then s.le.readBackRun + 1 else 0)
           else s.le.readBackRun) ∧
        u.spu = { s.spu with
          suspect := true, refWait := 0, dissent := false, callWindow := none,
          resumeWindow := none } ∧
        u.cke.bar = s.cke.bar ∧ u.cke.beat = s.cke.beat ∧ u.cke.lanes = s.cke.lanes ∧
        u.con = s.con ∧ u.psq = s.psq ∧ u.vsl = s.vsl ∧ SameHost s u)) ∧
    (∀ part, s.spu.showState = .run → s.cke.part = some part → r.votesDriven ≠ [] →
      s.le.sampled.beat = true → s.cke.launch = false → s.cke.armedTarget = none →
      s.cke.vamp = none → part.vamp = none → s.cke.compare = none →
      Completes (.voteFieldComplete v0 v1 v2 v3) s (fun u =>
        u.cke.bar =
          (if s.le.sampled.downbeat = true then min 9999 (s.cke.bar + 1) else s.cke.bar) ∧
        u.cke.beat =
          (if s.le.sampled.downbeat = true ∨ part.meter < s.cke.beat + 1 then 1
           else s.cke.beat + 1) ∧
        u.le.owners = [] ∧
        u.spu = { s.spu with
          suspect := true, refWait := 0, dissent := false, callWindow := none,
          resumeWindow := none } ∧
        u.con = s.con ∧ u.psq = s.psq ∧ u.vsl = s.vsl ∧ SameHost s u))

/-- R37, R38, R43, R187: the third round in a row whose driven bits read back recessive, and a dominant line, each
isolate the station: it releases the line, counts the fault, empties the queue, restarts the round timer, begins
local running, drops the held proposals and the pending target. After a dominant line, and after a blind round in
which no beat is counted, the rest of SPU (but for what R30 and R74 do at the blind round), VSL and the click
position stand, and the LINE notice is posted. That the results of the failing round are handed on before the line
fault, a video stop they raise among them, is the model's reading (log entry 13). A LISTEN that was running locally returns without a notice. -/
def Obligations.StationIsIsolated : Prop :=
  (∀ (s : State) (img : Image) (r : Round) (v0 v1 v2 v3 : Samples), s.image = some img →
    s.le.state = .joined → s.le.localRunning = false → s.le.round = some r → r.stage = .voting →
    r.drove = true → r.failsReadBack [v0, v1, v2, v3] = true → s.le.readBackRun = 2 →
    Completes (.voteFieldComplete v0 v1 v2 v3) s (fun u =>
      u.le.state = .isolated ∧ u.le.localRunning = true ∧ u.le.drive = [] ∧
      u.le.lineFaultCount = min (s.le.lineFaultCount + 1) 255 ∧ u.le.waitingHalt = none ∧
      u.le.queue = [] ∧ u.le.send = none ∧
      u.le.breakPending = false ∧
      u.le.roundTimer = some (max s.now (r.edge + 5 * img.charTime) + img.roundTime) ∧
      u.le.isolationCount = 0 ∧ u.le.round = none ∧ u.spu.proposal = none ∧
      u.spu.observed = none ∧ u.psq.target = none ∧ SameHost s u ∧
      (BlindRound r s [v0, v1, v2, v3] → s.con.together = [] →
        (s.clickRuns = false ∨ r.votesDriven = [] ∨ s.le.sampled.beat = false) →
        u.spu = { s.spu with
          suspect := true, refWait := 0, dissent := false, callWindow := none,
          resumeWindow := none, proposal := none, observed := none } ∧
        u.con = s.conAfter .line img.station 1 1 ∧ u.psq = s.psq.withdraw ∧ u.vsl = s.vsl ∧
        SameClick s.cke u.cke))) ∧
  (∀ (s : State) (img : Image) (t : Nat), s.image = some img →
    (s.le.state = .joined ∨ s.le.state = .listen) → s.le.localRunning = false →
    s.con.together = [] →
    Completes (.lineFault t) s (fun u =>
      u.le.state = .isolated ∧ u.le.localRunning = true ∧ u.le.drive = [] ∧ u.le.queue = [] ∧
      u.le.waitingHalt = none ∧ u.le.send = none ∧ u.le.round = none ∧
      u.le.lineFaultCount = min (s.le.lineFaultCount + 1) 255 ∧ u.le.isolationCount = 0 ∧
      u.le.roundTimer = some (max s.now t + img.roundTime) ∧
      u.le.roundCount = s.le.roundCount ∧ u.le.clashCount = s.le.clashCount ∧
      u.spu = { s.spu with proposal := none, observed := none } ∧
      u.con = s.conAfter .line img.station 1 2 ∧ u.psq = s.psq.withdraw ∧ u.vsl = s.vsl ∧
      SameClick s.cke u.cke ∧ SameHost s u)) ∧
  ∀ (s : State) (img : Image) (t : Nat), s.image = some img → s.le.state = .listen →
    s.le.localRunning = true → s.con.together = [] →
    Completes (.lineFault t) s (fun u =>
      u.le.state = .isolated ∧ u.le.localRunning = true ∧ u.le.queue = [] ∧ u.le.round = none ∧
      u.le.listenTimer = none ∧ u.le.isolationCount = 0 ∧
      u.le.lineFaultCount = min (s.le.lineFaultCount + 1) 255 ∧
      u.le.roundTimer = some (max s.now t + img.roundTime) ∧ u.spu = s.spu ∧ u.con = s.con ∧
      u.psq = s.psq ∧ u.vsl = s.vsl ∧ SameClick s.cke u.cke ∧ SameHost s u)

/-- R35, R40, R42, R45, R155, R161: in LISTEN the second clean round in a row joins, after its results: a raise they
bring (the video stop of a commit into a FREE cue with no live source) is made in LISTEN, which discards the break
request and keeps the HALT in the queue. In local running the observed rounds are not
handed on, and the joining ends local running, the local round and (log entry 14) the round in progress; the round
timer then runs P from the opening edge. -/
def Obligations.SecondCleanRoundJoins : Prop :=
  ∀ (s : State) (img : Image) (r : Round) (d0 d1 d2 d3 : Byte) (v0 v1 v2 v3 : Samples),
    s.image = some img → s.le.state = .listen →
    CleanRound r s d0 d1 d2 d3 [v0, v1, v2, v3] →
    (s.le.localRunning = false →
    Completes (.voteFieldComplete v0 v1 v2 v3) s (fun u =>
      (s.le.cleanRun = 0 → u.le.state = .listen ∧ u.le.cleanRun = 1) ∧
      (1 ≤ s.le.cleanRun → u.le.state = .joined ∧ u.spu.suspect = true ∧ u.le.readBackRun = 0) ∧
      u.le.owners = slotOwners (presenceMap d1 d2 d3) s.le.roundCount.toNat ∧
      u.le.breakPending = s.le.breakPending ∧
      (∀ h, img.roles.videoCritical = true → s.vsl.live = none → s.spu.ownStop = false →
        s.spu.showState = .run → img.isFree s.spu.cue = false → s.spu.proposal = some (.call h) →
        h.call.target ≠ s.spu.cue → h.call.downbeat = false → img.isFree h.call.target = true →
        d0.getLsbD 0 = false → d0.getLsbD 1 = false → d0.getLsbD 2 = false → d0.getLsbD 3 = false →
        s.le.queue = [] → s.le.waitingHalt = none →
        u.spu.ownStop = true ∧ u.spu.stopPosted = true ∧ u.spu.showState = .stopped ∧
        u.spu.cue = h.call.target ∧ u.psq.hold = true ∧
        u.le.queue = [Entry.fresh (.halt { reason := .video, detail := 0 })]) ∧ SameHost s u)) ∧
    (s.le.localRunning = true → s.con.together = [] →
    Completes (.voteFieldComplete v0 v1 v2 v3) s (fun u =>
      (s.le.cleanRun = 0 → u.le.state = .listen ∧ u.le.localRunning = true ∧ u.le.cleanRun = 1 ∧
        u.le.localRound = s.le.localRound ∧ u.le.roundTimer = s.le.roundTimer ∧
        u.spu = s.spu ∧ u.con = s.con) ∧
      (1 ≤ s.le.cleanRun → u.le.state = .joined ∧ u.le.localRunning = false ∧
        u.le.localRound = none ∧ u.le.round = none ∧ u.le.listenTimer = none ∧
        u.le.hunting = false ∧ u.le.readBackRun = 0 ∧
        u.le.roundTimer = some (r.edge + img.roundTime) ∧
        u.spu = { s.spu with suspect := true, refWait := 0 } ∧
        u.con = s.conAfter .line img.station 2 1) ∧
      u.le.owners = s.le.owners ∧ u.le.beatSource = s.le.beatSource ∧ u.le.queue = s.le.queue ∧
      u.psq = s.psq ∧ u.vsl = s.vsl ∧ SameClick s.cke u.cke ∧ SameHost s u))

/-! ## The vote (Chapters 4, 6, 8) -/

/-- R99, R110, R163, R165 to R167, R170: a clean vote field that carries STOP enters STOPPED from PRESHOW, RUN or STANDBY;
one that carries none takes a station in STOPPED to STANDBY unless it holds own-stop. Each entry withdraws the pending
target and brings the hold into force, and each posts its notice. -/
def Obligations.VoteFieldStopsAndReleases : Prop :=
  ∀ (s : State) (img : Image) (r : Round) (d0 d1 d2 d3 : Byte) (v0 v1 v2 v3 : Samples),
    s.image = some img → s.le.state = .joined → s.le.localRunning = false →
    CleanRound r s d0 d1 d2 d3 [v0, v1, v2, v3] →
    (d0.getLsbD 0 = true → s.spu.showState = .preshow ∨ s.spu.showState = .run →
      Completes (.voteFieldComplete v0 v1 v2 v3) s (fun u =>
        u.spu.showState = .stopped ∧ u.spu.cue = s.spu.cue ∧ u.spu.proposal = none ∧
        u.spu.observed = none ∧ u.spu.armed = none ∧ u.spu.launchPending = false ∧
        u.spu.late = s.spu.late ∧ u.spu.snapshot = some
          { cue := s.spu.cue, bar := s.shownBar img, beat := s.shownBeat img,
            vamp := s.cke.vamp.map VampState.pass, tempo := s.cke.tempo,
            tempoOverride := s.cke.override, cameraOverride := s.vsl.override } ∧
        u.cke.bar = s.cke.bar ∧ u.cke.beat = s.cke.beat ∧ u.cke.vamp = s.cke.vamp ∧
        u.cke.beatTimer = none ∧ u.cke.armedTarget = none ∧ u.cke.ramp = none ∧
        BeginsHold s.psq u.psq ∧ Told u s.spu.cue .stop img.station 4 0 ∧ u.vsl.live = s.vsl.live ∧
        u.vsl.desired = s.vsl.desired)) ∧
    (d0.getLsbD 0 = true → s.spu.showState = .standby →
      Completes (.voteFieldComplete v0 v1 v2 v3) s (fun u =>
        u.spu.showState = .stopped ∧ u.spu.snapshot = s.spu.snapshot ∧ u.spu.proposal = none ∧
        BeginsHold s.psq u.psq ∧ Told u s.spu.cue .stop img.station 4 0 ∧ u.spu.origin = s.spu.origin)) ∧
    (d0.getLsbD 0 = false → s.spu.showState = .stopped →
      Completes (.voteFieldComplete v0 v1 v2 v3) s (fun u =>
        u.spu.showState = (if s.spu.ownStop then .stopped else .standby) ∧
        u.spu.ownStop = s.spu.ownStop ∧ u.spu.snapshot = s.spu.snapshot ∧
        u.spu.origin = s.spu.origin ∧ u.spu.cue = s.spu.cue ∧ u.psq = s.psq ∧
        (s.spu.ownStop = false → Told u s.spu.cue .standby img.station s.spu.origin.length
          (if s.spu.snapshot = none then 0 else 1)) ∧
        SameClick s.cke u.cke))

/-- R44, R61, R117, R121, R163, R170: a local vote field complete hands the station's own contributions: the station alone is
present, is beat source and owns the slots, the stop rules follow its own STOP, and where the click runs the beat
timer of a station whose timer did not run starts. That the windows empty at
a local round too is log entry 18, and that the last map is its map too is log entry 12. -/
def Obligations.LocalResultIsOwn : Prop :=
  ∀ (s : State) (img : Image) (r : LocalRound), s.image = some img → s.le.localRunning = true →
    s.le.localRound = some r → r.stage = .voting →
    Completes .localVoteFieldComplete s (fun u =>
      u.le.localRound = some { r with stage := .judged } ∧ u.le.beatSource = some img.station ∧
      u.le.owners = [img.station, img.station, img.station] ∧ u.le.state = s.le.state ∧
      u.le.thisMap = stationSet img.station ∧ u.le.lastMap = stationSet img.station ∧
      u.spu.dissent = false ∧ u.spu.callWindow = none ∧ u.spu.resumeWindow = none ∧
      u.vsl.pitCamfail = s.le.sampled.camfail ∧
      u.con.lamp = (if img.roles.sm then s.le.sampled.attend else s.con.lamp) ∧
      (s.spu.showState = .stopped → s.le.sampled.stop = false → s.spu.ownStop = false →
        u.spu.showState = .standby) ∧
      (s.spu.showState = .stopped → s.spu.ownStop = true → u.spu.showState = .stopped) ∧
      (s.spu.showState = .run → s.le.sampled.stop = true → u.spu.showState = .stopped) ∧
      (s.spu.showState = .run → s.cke.part ≠ none → img.isFree s.spu.cue = false →
        s.le.sampled.stop = false → s.le.sampled.beat = false → s.spu.proposal = none →
        s.spu.observed = none → s.cke.beatTimer = none →
        StartsBeatTimer s.cke.shadow (max s.now (r.edge + 5 * img.charTime)) u.cke ∧
        u.cke.shadow = s.cke.shadow ∧ u.cke.launch = s.cke.launch ∧ u.cke.part = s.cke.part ∧
        u.cke.beat = s.cke.beat ∧ u.cke.tempo = s.cke.tempo) ∧
      SameHost s u)

/-- R73, R75 to R77, R80 to R82, R85, R117, R121: the decision of a pending CALL, in PRESHOW or RUN, at a clean vote field that
counts no beat. One that takes effect at once (immediate, or in a FREE cue) is dropped by DISSENT, waits on NOTREADY
with patience left, and else commits into RUN, forced when patience is 0, with the CUE or CUE-LATE
notice; a commit into a click cue starts the beat timer at the beat source; one at the next downbeat, in a cue with a
click part, arms the station and CKE. An observed CALL is decided by the same table: its commit is dropped without
effect at a target of 0 or out of range, clears the suspect flag alone at the current cue, and else applies the
commit and clears the flag; one at the next downbeat arms with the observed mark. -/
def Obligations.PendingCallIsDecided : Prop :=
  (∀ (s : State) (img : Image) (r : Round) (d0 d1 d2 d3 : Byte) (v0 v1 v2 v3 : Samples)
    (h : HeldCall), s.image = some img → s.le.state = .joined → s.le.localRunning = false →
    CleanRound r s d0 d1 d2 d3 [v0, v1, v2, v3] →
    (s.spu.showState = .preshow ∨ s.spu.showState = .run) →
    s.spu.proposal = some (.call h) → (h.call.downbeat = false ∨ img.isFree s.spu.cue = true) →
    h.call.target ≠ s.spu.cue →
    d0.getLsbD 0 = false → d0.getLsbD 3 = false → img.roles.videoCritical = false →
    (d0.getLsbD 2 = true →
      Completes (.voteFieldComplete v0 v1 v2 v3) s (fun u =>
        u.spu.proposal = none ∧ u.spu.cue = s.spu.cue ∧ u.spu.late = s.spu.late ∧
        u.spu.showState = s.spu.showState ∧ u.psq.target = none ∧ SameClick s.cke u.cke ∧
        (h.proposer = img.station → Told u s.spu.cue .callDropped img.station 1 0))) ∧
    (d0.getLsbD 2 = false → d0.getLsbD 1 = true → 0 < h.patience →
      Completes (.voteFieldComplete v0 v1 v2 v3) s (fun u =>
        u.spu.proposal = some (.call { h with patience := h.patience - 1 }) ∧
        u.spu.cue = s.spu.cue ∧ u.psq = s.psq ∧ SameClick s.cke u.cke)) ∧
    (d0.getLsbD 2 = false → (d0.getLsbD 1 = true → h.patience = 0) →
      Completes (.voteFieldComplete v0 v1 v2 v3) s (fun u =>
        u.spu.proposal = none ∧ u.spu.cue = h.call.target ∧ u.spu.showState = .run ∧
        u.spu.lastTransition = some (s.spu.cue, h.call.target) ∧
        u.spu.late = d0.getLsbD 1 ∧ u.spu.launchPending = !img.isFree h.call.target ∧
        u.cke.launch = !img.isFree h.call.target ∧ u.cke.bar = img.startBar h.call.target ∧
        u.cke.beat = 1 ∧ u.cke.vamp = none ∧ u.cke.compare = (if img.isFree h.call.target then none
          else compareOf img h.call.target) ∧
        (img.isFree h.call.target = false → u.cke.override = none) ∧
        Told u h.call.target (if d0.getLsbD 1 then .cueLate else .cue) h.proposer 1 0 ∧
        (img.isFree h.call.target = false →
          (img.reference (presenceMap d1 d2 d3) = some img.station → s.cke.beatTimer = none →
            StartsBeatTimer s.cke.shadow (max s.now (r.edge + 5 * img.charTime)) u.cke) ∧
          (img.reference (presenceMap d1 d2 d3) ≠ some img.station → u.cke.beatTimer = none))))) ∧
  (∀ (s : State) (img : Image) (r : Round) (d0 d1 d2 d3 : Byte) (v0 v1 v2 v3 : Samples)
    (h : HeldCall), s.image = some img → s.le.state = .joined → s.le.localRunning = false →
    CleanRound r s d0 d1 d2 d3 [v0, v1, v2, v3] → s.spu.showState = .run →
    s.spu.proposal = some (.call h) → h.call.downbeat = true → img.isFree s.spu.cue = false →
    d0.getLsbD 0 = false → d0.getLsbD 1 = false → d0.getLsbD 2 = false → d0.getLsbD 3 = false →
    img.roles.videoCritical = false →
    Completes (.voteFieldComplete v0 v1 v2 v3) s (fun u =>
      u.spu.proposal = none ∧ u.spu.cue = s.spu.cue ∧ u.psq.target = none ∧
      u.spu.armed = some
        { proposer := h.proposer, call := h.call, forced := false, observed := false } ∧
      u.cke.armedTarget = some h.call.target ∧ u.cke.bar = s.cke.bar ∧ u.cke.beat = s.cke.beat)) ∧
  ∀ (s : State) (img : Image) (r : Round) (d0 d1 d2 d3 : Byte) (v0 v1 v2 v3 : Samples)
    (h : HeldCall), s.image = some img → s.le.state = .joined → s.le.localRunning = false →
    CleanRound r s d0 d1 d2 d3 [v0, v1, v2, v3] →
    (s.spu.showState = .preshow ∨ s.spu.showState = .run) →
    s.spu.proposal = none → s.spu.observed = some h → d0.getLsbD 0 = false → d0.getLsbD 3 = false →
    img.roles.videoCritical = false → img.reference (presenceMap d1 d2 d3) ≠ some img.station →
    (d0.getLsbD 2 = true →
      Completes (.voteFieldComplete v0 v1 v2 v3) s (fun u =>
        u.spu.observed = none ∧ u.spu.armed = s.spu.armed ∧ u.spu.cue = s.spu.cue ∧
        u.spu.suspect = s.spu.suspect ∧ u.psq = s.psq ∧ SameClick s.cke u.cke ∧
        (s.con.together = [] → s.spu.awaitingCall = false → s.spu.awaitingResume = false →
          d0.getLsbD 5 = s.vsl.pitCamfail →
          u.con.notices =
            if h.proposer = img.station then (s.conAfter .callDropped img.station 1 0).notices
            else s.con.notices))) ∧
    (d0.getLsbD 2 = false → d0.getLsbD 1 = true → 0 < h.patience →
      Completes (.voteFieldComplete v0 v1 v2 v3) s (fun u =>
        u.spu.observed = some { h with patience := h.patience - 1 } ∧ u.spu.armed = s.spu.armed ∧
        u.spu.cue = s.spu.cue ∧ u.spu.suspect = s.spu.suspect ∧ u.psq = s.psq ∧
        SameClick s.cke u.cke)) ∧
    (d0.getLsbD 2 = false → (d0.getLsbD 1 = true → h.patience = 0) →
      Completes (.voteFieldComplete v0 v1 v2 v3) s (fun u =>
        u.spu.observed = none ∧ u.spu.proposal = none ∧
        (h.call.target = 0 ∨ img.cues.length ≤ h.call.target →
          u.spu.cue = s.spu.cue ∧ u.spu.suspect = s.spu.suspect ∧ u.spu.armed = s.spu.armed ∧
          u.spu.lastTransition = s.spu.lastTransition ∧ u.psq = s.psq ∧ SameClick s.cke u.cke) ∧
        (h.call.target ≠ 0 → h.call.target < img.cues.length → h.call.target = s.spu.cue →
          u.spu.cue = s.spu.cue ∧ u.spu.suspect = false ∧ u.spu.armed = s.spu.armed ∧
          u.spu.lastTransition = s.spu.lastTransition ∧ u.psq = s.psq ∧ SameClick s.cke u.cke) ∧
        (h.call.target ≠ 0 → h.call.target < img.cues.length → h.call.target ≠ s.spu.cue →
          (h.call.downbeat = false ∨ img.isFree s.spu.cue = true →
            u.spu.cue = h.call.target ∧ u.spu.suspect = false ∧ u.spu.showState = .run ∧
            u.spu.lastTransition = some (s.spu.cue, h.call.target) ∧
            u.spu.late = d0.getLsbD 1 ∧ u.spu.launchPending = !img.isFree h.call.target ∧
            u.cke.launch = !img.isFree h.call.target ∧
            u.cke.bar = img.startBar h.call.target ∧ u.cke.beat = 1 ∧
            Told u h.call.target (if d0.getLsbD 1 then .cueLate else .cue) h.proposer 1 1) ∧
          (h.call.downbeat = true → img.isFree s.spu.cue = false →
            u.spu.cue = s.spu.cue ∧ u.spu.suspect = s.spu.suspect ∧
            u.spu.armed = some
              { proposer := h.proposer, call := h.call, forced := d0.getLsbD 1, observed := true } ∧
            u.cke.armedTarget = some h.call.target ∧ u.cke.bar = s.cke.bar ∧
            u.cke.beat = s.cke.beat ∧ u.psq = s.psq))))

/-- R117, R121, R175 to R178: the decision of a pending RESUME at a clean vote field without STOP: dropped by DISSENT, waiting
on NOTREADY with patience left, timed out at patience 0, each with the show state still STANDBY; else the resume
commit, with the restart bar, the tempo, the pass and the camera override of R177, and the restart record where it
enters COUNTIN. Each outcome posts its notice (R176), and a commit into a click cue starts the beat timer at the beat
source. A commit into a FREE cue
leaves the tempo and the override. -/
def Obligations.PendingResumeIsDecided : Prop :=
  ∀ (s : State) (img : Image) (r : Round) (d0 d1 d2 d3 : Byte) (v0 v1 v2 v3 : Samples)
    (h : HeldResume), s.image = some img → s.le.state = .joined → s.le.localRunning = false →
    CleanRound r s d0 d1 d2 d3 [v0, v1, v2, v3] → s.spu.showState = .standby →
    s.spu.proposal = some (.resume h) → d0.getLsbD 0 = false →
    img.roles.videoCritical = false →
    (d0.getLsbD 2 = true ∨ (d0.getLsbD 1 = true ∧ h.patience = 0) →
      Completes (.voteFieldComplete v0 v1 v2 v3) s (fun u =>
        u.spu.proposal = none ∧ u.spu.showState = .standby ∧ u.psq.target = none ∧
        u.spu.snapshot = s.spu.snapshot ∧
        (d0.getLsbD 2 = true → h.proposer = img.station → Told u s.spu.cue .resume img.station 2 0) ∧
        (d0.getLsbD 2 = false → Told u s.spu.cue .resumeTimeout h.proposer
          (if s.le.sampled.notReady then 1 else 0) 0))) ∧
    (d0.getLsbD 2 = false → d0.getLsbD 1 = true → 0 < h.patience →
      Completes (.voteFieldComplete v0 v1 v2 v3) s (fun u =>
        u.spu.proposal = some (.resume { h with patience := h.patience - 1 }) ∧
        u.spu.showState = .standby ∧ u.psq = s.psq)) ∧
    (d0.getLsbD 2 = false → d0.getLsbD 1 = false →
      Completes (.voteFieldComplete v0 v1 v2 v3) s (fun u =>
        u.spu.proposal = none ∧ u.spu.cue = h.resume.cue ∧ u.spu.late = false ∧
        u.spu.lastTransition = none ∧ u.spu.snapshot = none ∧ u.spu.origin = [] ∧
        u.spu.showState =
          (if 0 < h.resume.countIn ∧ img.isFree h.resume.cue = false then .countin else .run) ∧
        u.spu.launchPending = !img.isFree h.resume.cue ∧ u.psq.hold = false ∧
        Told u h.resume.cue .resume h.proposer 1 h.resume.countIn ∧
        (h.resume.countIn = 0 ∨ img.isFree h.resume.cue = true → u.spu.restart = none) ∧
        (img.isFree h.resume.cue = false →
          (img.reference (presenceMap d1 d2 d3) = some img.station → s.cke.beatTimer = none →
            StartsBeatTimer s.cke.shadow (max s.now (r.edge + 5 * img.charTime)) u.cke) ∧
          (img.reference (presenceMap d1 d2 d3) ≠ some img.station → u.cke.beatTimer = none)) ∧
        u.vsl.override = (if h.resume.mask.camera then s.spu.snapshot.bind Snapshot.cameraOverride
          else none) ∧
        (img.isFree h.resume.cue = true →
          u.cke.tempo = s.cke.tempo ∧ u.cke.override = s.cke.override ∧ u.cke.countIn = none) ∧
        ∀ part bar, img.clickOf h.resume.cue = some part →
          bar = (if h.resume.bar ≠ 0 then h.resume.bar
            else match s.spu.snapshot with
              | some x => if x.cue = h.resume.cue then x.bar else img.startBar h.resume.cue
              | none => img.startBar h.resume.cue) →
          u.cke.bar = bar ∧ u.cke.beat = 1 ∧ u.cke.launch = true ∧
          u.cke.countIn = (if h.resume.countIn = 0 then none
            else some { bars := h.resume.countIn, bar := 0 }) ∧
          (0 < h.resume.countIn →
            u.spu.restart = some { bar := bar, pass := u.cke.resume.getD none }) ∧
          (∀ x, h.resume.mask.tempo = true → s.spu.snapshot = some x → x.cue = h.resume.cue →
            u.cke.tempo = x.tempo ∧ u.cke.override = x.tempoOverride) ∧
          (h.resume.mask.tempo = false ∨ s.spu.snapshot = none ∨
              (∀ x, s.spu.snapshot = some x → x.cue ≠ h.resume.cue) →
            u.cke.override = none ∧ u.cke.tempo =
              (match part.ramp with
                | some m => if bar = img.startBar h.resume.cue then part.tempo else m.target
                | none => part.tempo)) ∧
          (∀ x v n, h.resume.mask.vamp = true → s.spu.snapshot = some x → x.cue = h.resume.cue →
            x.vamp = some n → part.vamp = some v → v.start ≤ bar → bar ≤ v.start + v.length - 1 →
            u.cke.resume = some (some n)) ∧
          (h.resume.mask.vamp = false ∨ s.spu.snapshot = none ∨
              (∀ x, s.spu.snapshot = some x → x.cue ≠ h.resume.cue ∨ x.vamp = none) ∨
              part.vamp = none ∨
              (∀ v, part.vamp = some v → bar < v.start ∨ v.start + v.length - 1 < bar) →
            u.cke.resume = some none)))

/-! ## Counted beats (Chapter 6) -/

/-- R122 to R125: in RUN a clean result with BEAT counts a beat: without DOWNBEAT the next beat of the bar,
with DOWNBEAT the next bar; a result without BEAT counts none. -/
def Obligations.BeatIsCounted : Prop :=
  ∀ (s : State) (img : Image) (r : Round) (d0 d1 d2 d3 : Byte) (v0 v1 v2 v3 : Samples)
    (part : ClickPart), s.image = some img → s.le.state = .joined → s.le.localRunning = false →
    CleanRound r s d0 d1 d2 d3 [v0, v1, v2, v3] → s.spu.showState = .run →
    s.spu.proposal = none → s.spu.observed = none → s.cke.part = some part →
    s.cke.launch = false → s.cke.armedTarget = none → s.cke.vamp = none → part.vamp = none →
    s.cke.compare = none → s.cke.countIn = none → d0.getLsbD 0 = false →
    img.roles.videoCritical = false →
    (d0.getLsbD 3 = true → d0.getLsbD 4 = false →
      Completes (.voteFieldComplete v0 v1 v2 v3) s (fun u =>
        u.cke.bar = s.cke.bar ∧
        u.cke.beat = (if part.meter < s.cke.beat + 1 then 1 else s.cke.beat + 1) ∧
        u.spu.cue = s.spu.cue)) ∧
    (d0.getLsbD 3 = true → d0.getLsbD 4 = true →
      Completes (.voteFieldComplete v0 v1 v2 v3) s (fun u =>
        u.cke.bar = min 9999 (s.cke.bar + 1) ∧ u.cke.beat = 1 ∧ u.spu.cue = s.spu.cue)) ∧
    (d0.getLsbD 3 = false →
      Completes (.voteFieldComplete v0 v1 v2 v3) s (fun u =>
        u.cke.bar = s.cke.bar ∧ u.cke.beat = s.cke.beat ∧ u.cke.lanes = s.cke.lanes ∧
        u.spu.cue = s.spu.cue))

/-- R116, R123, R124, R134 to R136, R138: where a counted beat leaves the position, the vamp, the launch marker and the
count-in with no armed target held, what it reports, and when it matches the compare point. That a launch beat
without DOWNBEAT makes no vamp entry test, and restores the vamp at a resume, is the model's reading (log entry
23). -/
def Obligations.CountedBeatIsPlaced : Prop :=
  ∀ (k : Cke) (img : Image) (part : ClickPart) (vfs now : Nat), k.part = some part →
    k.armedTarget = none →
    (∀ run, k.launch = true → (run = true → k.resume = none) →
      (k.count img run false vfs now).1.bar = k.bar ∧
      (k.count img run false vfs now).1.beat = k.beat ∧
      (k.count img run false vfs now).1.vamp = k.vamp ∧
      (k.count img run false vfs now).1.launch = false ∧
      (k.count img run false vfs now).1.countIn =
        (if run then k.countIn else k.countIn.map (fun c => { c with bar := 1 })) ∧
      (k.count img run false vfs now).2.launch = true) ∧
    (∀ run, k.launch = false →
      (k.count img run false vfs now).1.bar = k.bar ∧
      (k.count img run false vfs now).1.beat = (if part.meter < k.beat + 1 then 1 else k.beat + 1) ∧
      (k.count img run false vfs now).1.vamp = k.vamp ∧
      (k.count img run false vfs now).1.countIn = k.countIn ∧
      (k.count img run false vfs now).2.launch = false) ∧
    (k.launch = true →
      (k.count img false true vfs now).1.bar = k.bar ∧
      (k.count img false true vfs now).1.beat = k.beat ∧
      (k.count img false true vfs now).1.launch = false ∧
      (k.count img false true vfs now).1.countIn = k.countIn.map (fun c => { c with bar := 1 }) ∧
      (k.count img false true vfs now).2.launch = true) ∧
    (k.launch = true → k.resume = none →
      (k.count img true true vfs now).1.bar = k.bar ∧
      (k.count img true true vfs now).1.beat = k.beat ∧
      (k.count img true true vfs now).1.launch = false ∧
      (k.count img true true vfs now).2.launch = true ∧
      EntersVamp part k.vamp k.bar (k.count img true true vfs now).1.vamp) ∧
    (∀ pass d, k.launch = true → k.resume = some pass →
      (k.count img true d vfs now).1.bar = k.bar ∧ (k.count img true d vfs now).1.beat = k.beat ∧
      (k.count img true d vfs now).1.launch = false ∧
      (k.count img true d vfs now).2.launch = true ∧
      RestoresVamp part pass k.vamp k.bar (k.count img true d vfs now).1.vamp) ∧
    (∀ c, k.launch = false → k.countIn = some c →
      (k.count img false true vfs now).1.bar = k.bar ∧
      (k.count img false true vfs now).1.beat = 1 ∧
      (c.bar < c.bars →
        (k.count img false true vfs now).1.countIn = some { c with bar := c.bar + 1 } ∧
        (k.count img false true vfs now).1.vamp = k.vamp ∧
        (k.count img false true vfs now).2.countIn = false) ∧
      (c.bars ≤ c.bar → (k.count img false true vfs now).1.countIn = none ∧
        (k.count img false true vfs now).2.countIn = true ∧
        RestoresVamp part (k.resume.getD none) k.vamp k.bar
          (k.count img false true vfs now).1.vamp)) ∧
    (∀ v y, k.launch = false → part.vamp = some v → k.vamp = some y →
      k.bar = v.start + v.length - 1 →
      (k.count img true true vfs now).1.beat = 1 ∧
      (y.left = none → (k.count img true true vfs now).1.bar = v.start ∧
        (k.count img true true vfs now).1.vamp =
          some { pass := min 255 (y.pass + 1), left := none }) ∧
      (∀ n, y.left = some n → 1 < n → (k.count img true true vfs now).1.bar = v.start ∧
        (k.count img true true vfs now).1.vamp =
          some { pass := y.pass + 1, left := some (n - 1) }) ∧
      (∀ n, y.left = some n → n ≤ 1 →
        (k.count img true true vfs now).1.bar = min 9999 (v.start + v.length) ∧
        (k.count img true true vfs now).1.vamp = none)) ∧
    (k.launch = false → (k.vamp = none ∨ part.vamp = none ∨
        (∀ v, part.vamp = some v → k.bar ≠ v.start + v.length - 1)) →
      (k.count img true true vfs now).1.bar = min 9999 (k.bar + 1) ∧
      (k.count img true true vfs now).1.beat = 1 ∧
      EntersVamp part k.vamp (min 9999 (k.bar + 1)) (k.count img true true vfs now).1.vamp) ∧
    (∀ d c, (k.count img true d vfs now).2.matched = some c ↔
      ∃ p, k.compare = some p ∧ p.cue = c ∧ p.bar = (k.count img true d vfs now).1.bar ∧
        p.beat = (k.count img true d vfs now).1.beat ∧
        (k.count img true d vfs now).1.vamp = none) ∧
    ∀ d, (k.count img false d vfs now).2.countIn = false →
      (k.count img false d vfs now).2.matched = none

/-- R118, R120, R125 to R127, R132: what a counted beat does to the ramp and the tempo, the timers, the lanes and the
SUB clicks owed, with no armed target held; and what a lane does at a click. -/
def Obligations.CountedBeatStepsAndSounds : Prop :=
  (∀ (k : Cke) (img : Image) (part : ClickPart) (run d : Bool) (vfs now : Nat),
    k.part = some part → k.armedTarget = none →
    (∀ m, run = true → k.launch = false → k.ramp = some m → k.override = none →
      (k.count img run d vfs now).1.ramp =
        (if m.length ≤ m.step + 1 then none else some { m with step := m.step + 1 }) ∧
      (k.count img run d vfs now).1.tempo =
        (if m.start ≤ m.target then m.start + (m.target - m.start) * (m.step + 1) / m.length
         else m.start - (m.start - m.target) * (m.step + 1) / m.length)) ∧
    (run = false ∨ k.launch = true ∨ k.ramp = none →
      (k.count img run d vfs now).1.ramp = k.ramp ∧
      (k.count img run d vfs now).1.tempo = k.tempo) ∧
    (k.count img run d vfs now).1.shadow =
      .running (vfs + 6000000 / (k.count img run d vfs now).1.tempo * 100000) ∧
    (∀ bt e, k.beatTimer = some bt → bt.last = some e → k.dueSampled = true →
      (k.count img run d vfs now).1.beatTimer = some
        (if (k.count img run d vfs now).1.tempo = bt.reload then bt
         else { bt with
           pending := e + 6000000 / (k.count img run d vfs now).1.tempo * 100000 })) ∧
    (run = true ∨ (k.count img run d vfs now).2.countIn = true →
      (k.count img run d vfs now).1.lanes = Lanes.zip3With
        (laneSound (if part.accents.getLsbD ((k.count img run d vfs now).1.beat - 1) = true
          then .accent else .beat)) img.lanes part.lanes k.lanes ∧
      (1 < part.subdivision →
        (k.count img run d vfs now).1.subOwed = part.subdivision - 1 ∧
        (k.count img run d vfs now).1.subInterval =
          6000000 / (k.count img run d vfs now).1.tempo / part.subdivision ∧
        (k.count img run d vfs now).1.subNext = some (now +
          6000000 / (k.count img run d vfs now).1.tempo / part.subdivision * 100000)) ∧
      (part.subdivision ≤ 1 → (k.count img run d vfs now).1.subOwed = 0 ∧
        (k.count img run d vfs now).1.subNext = none)) ∧
    (run = false → (k.count img run d vfs now).2.countIn = false →
      (k.count img run d vfs now).1.lanes =
        Lanes.zip3With (laneSound .count) img.lanes part.lanes k.lanes ∧
      (k.count img run d vfs now).1.subOwed = 0 ∧
      (k.count img run d vfs now).1.subNext = none)) ∧
  (∀ (voice : Voice) (mode : LaneMode) (l : LaneOut), laneSound voice mode false l = l) ∧
  (∀ (voice : Voice) (mode : LaneMode) (l : LaneOut), mode.toggle = true →
    laneSound voice mode true l = if voice = .sub then l else { l with level := !l.level }) ∧
  ∀ (voice : Voice) (mode : LaneMode) (l : LaneOut), mode.toggle = false →
    laneSound voice mode true l =
      if voice = .sub ∧ mode.subdivisions = false then l
      else { l with voice := voice, pulses := l.pulses + 1 }

/-- R78, R84, R85, R133, R134, R136, R138, R179: what the reports of a counted beat do at SPU. A qualifying downbeat takes the
armed GO into effect; the downbeat that ends a count-in enters RUN; a compare match in RUN commits the next cue,
drops a held CALL, and does nothing at the last cue. Each commit posts its notice. That the CALL-DROPPED of a CALL
held at an auto-GO comes after the commit, with the new cue, is the model's choice (log entry 19). -/
def Obligations.CountedBeatReports : Prop :=
  ∀ (s : State) (img : Image) (r : Round) (d0 d1 d2 d3 : Byte) (v0 v1 v2 v3 : Samples)
    (part : ClickPart), s.image = some img → s.le.state = .joined → s.le.localRunning = false →
    CleanRound r s d0 d1 d2 d3 [v0, v1, v2, v3] → s.cke.part = some part →
    d0.getLsbD 0 = false → d0.getLsbD 3 = true → s.spu.observed = none →
    img.roles.videoCritical = false →
    (∀ a : Armed, s.spu.showState = .run → s.spu.proposal = none → s.spu.armed = some a →
      a.observed = false → s.cke.armedTarget = some a.call.target → a.call.target ≠ s.spu.cue →
      img.autoGoOf a.call.target = none → d0.getLsbD 4 = true →
      (s.cke.vamp = none ∨ ∃ v, part.vamp = some v ∧ s.cke.bar = v.start + v.length - 1) →
      Completes (.voteFieldComplete v0 v1 v2 v3) s (fun u =>
        u.spu.cue = a.call.target ∧ u.spu.armed = none ∧ u.spu.showState = .run ∧
        u.spu.lastTransition = some (s.spu.cue, a.call.target) ∧ u.spu.late = a.forced ∧
        u.spu.launchPending = false ∧ u.cke.armedTarget = none ∧ u.cke.launch = false ∧
        u.cke.bar = img.startBar a.call.target ∧ u.cke.beat = 1 ∧
        u.cke.part = img.clickOf a.call.target ∧
        Told u a.call.target (if a.forced then .cueLate else .cue) a.proposer 2 0 ∧
        (img.isFree a.call.target = true → u.cke.vamp = none) ∧
        ∀ p, img.clickOf a.call.target = some p → u.cke.tempo = p.tempo ∧
          u.cke.override = none ∧
          EntersVamp p none (img.startBar a.call.target) u.cke.vamp)) ∧
    (∀ c, s.spu.showState = .countin → s.spu.proposal = none → s.cke.launch = false →
      s.cke.armedTarget = none → s.cke.countIn = some c → c.bars ≤ c.bar → s.cke.compare = none →
      d0.getLsbD 4 = true →
      Completes (.voteFieldComplete v0 v1 v2 v3) s (fun u =>
        u.spu.showState = .run ∧ u.spu.restart = none ∧ u.spu.cue = s.spu.cue ∧
        u.cke.countIn = none ∧ u.cke.bar = s.cke.bar ∧ u.cke.beat = 1)) ∧
    (∀ c, s.spu.showState = .countin → s.spu.proposal = none → s.cke.launch = false →
      s.cke.armedTarget = none → s.cke.countIn = some c → c.bar < c.bars → d0.getLsbD 4 = true →
      Completes (.voteFieldComplete v0 v1 v2 v3) s (fun u =>
        u.spu.showState = .countin ∧ u.spu.restart = s.spu.restart ∧
        u.cke.countIn = some { c with bar := c.bar + 1 } ∧ u.cke.bar = s.cke.bar ∧
        u.cke.beat = 1)) ∧
    ∀ c : ComparePoint, s.spu.showState = .run → s.spu.armed = none → s.cke.launch = false →
      s.cke.armedTarget = none → s.cke.vamp = none → d0.getLsbD 4 = false →
      s.cke.compare = some c → c.cue = s.spu.cue → c.bar = s.cke.bar →
      c.beat = (if part.meter < s.cke.beat + 1 then 1 else s.cke.beat + 1) →
      (s.spu.proposal = none ∨
        ∃ h, s.spu.proposal = some (.call h) ∧ d0.getLsbD 2 = false ∧ d0.getLsbD 1 = true ∧
          0 < h.patience) →
      (s.spu.cue + 1 < img.cues.length →
        Completes (.voteFieldComplete v0 v1 v2 v3) s (fun u =>
          u.spu.cue = s.spu.cue + 1 ∧ u.spu.showState = .run ∧ u.spu.proposal = none ∧
          u.spu.lastTransition = some (s.spu.cue, s.spu.cue + 1) ∧ u.spu.late = s.spu.late ∧
          u.spu.launchPending = !img.isFree (s.spu.cue + 1) ∧
          u.cke.launch = !img.isFree (s.spu.cue + 1) ∧ u.psq.target = none ∧
          Told u (s.spu.cue + 1) .cue img.station 3 0 ∧
          (∀ h, s.spu.proposal = some (.call h) → h.proposer = img.station →
            Told u (s.spu.cue + 1) .callDropped img.station 1 0) ∧
          u.cke.bar = img.startBar (s.spu.cue + 1) ∧ u.cke.beat = 1)) ∧
      (img.cues.length ≤ s.spu.cue + 1 → s.spu.proposal = none →
        Completes (.voteFieldComplete v0 v1 v2 v3) s (fun u =>
          u.spu.cue = s.spu.cue ∧ u.spu.lastTransition = s.spu.lastTransition ∧
          u.cke.bar = s.cke.bar ∧ u.cke.beat = c.beat))

/-! ## Breaks, talk slots and the decoder (Chapters 2 and 3) -/

/-- R22, R35, R36, R110, R163, R165, R166: a pending break is driven at the boundary for one character time in place of a
character of the station's own; one of its own message fails the send; after a break it is dropped. A break seen
in JOINED, or in LISTEN without local running, enters STOPPED with the origin unknown; in STOPPED, and in local
running, it enters nothing. It ends no break of the station's own before that break's character time has passed. -/
def Obligations.BreaksAreDrivenAndSeen : Prop :=
  (∀ (s : State) (img : Image) (t p : Nat) (w : Samples), s.image = some img →
    s.le.state = .joined → s.le.breakPending = true →
    (w = breakBits →
      Completes (.breakStart p w t) s (fun u =>
        u.le = { s.le with breakPending := false } ∧ u.now = max s.now t ∧ OnlyLine s u)) ∧
    (w ≠ breakBits → (∀ x, s.le.send = some x → x.covers p = false) → 5 < p →
      Completes (.breakStart p w t) s (fun u =>
        u.le = { s.le with
          breakPending := false, breakDriving := some p, breakUntil := max s.now t + img.charTime
          drive := [breakBits], driveFrom := max s.now t } ∧ OnlyLine s u)) ∧
    (∀ r, w ≠ breakBits → s.le.round = some r → r.stage = .voting → 2 ≤ p → p ≤ 5 →
      Completes (.breakStart p w t) s (fun u =>
        u.le = { s.le with
          breakPending := false, breakDriving := some p, breakUntil := max s.now t + img.charTime
          drive := s.le.drive.set (p - 2) breakBits
          round := some { r with breaks := r.breaks ||| BitVec.ofNat 6 (2 ^ p) } } ∧
        OnlyLine s u)) ∧
    (∀ x, w ≠ breakBits → s.le.send = some x → x.covers p = true →
      Completes (.breakStart p w t) s (fun u =>
        u.le.breakPending = false ∧ u.le.breakDriving = some p ∧ u.le.drive = [breakBits] ∧
        u.le.driveFrom = max s.now t ∧ u.le.breakUntil = max s.now t + img.charTime ∧ u.le.send = none ∧
        u.le.clashCount = min (s.le.clashCount + 1) 255 ∧ u.le.waitingHalt = none ∧
        OnlyLine s u))) ∧
  ∀ (s : State) (img : Image) (t : Nat), s.image = some img → s.con.together = [] →
    (s.le.localRunning = false → (s.le.state = .joined ∨ s.le.state = .listen) →
      s.spu.showState = .run → s.holdsNothing →
      Completes (.breakSeen t) s (fun u =>
        u.spu.showState = .stopped ∧ u.spu.cue = s.spu.cue ∧ u.spu.ownStop = s.spu.ownStop ∧
        u.spu.origin = s.spu.origin ∧ u.spu.snapshot = some
          { cue := s.spu.cue, bar := s.shownBar img, beat := s.shownBeat img,
            vamp := s.cke.vamp.map VampState.pass, tempo := s.cke.tempo,
            tempoOverride := s.cke.override, cameraOverride := s.vsl.override } ∧
        u.con = s.conAfter .stop img.station 3 0 ∧ BeginsHold s.psq u.psq ∧ u.cke.beatTimer = none ∧
        u.vsl = s.vsl ∧ SeesBreak t s u ∧ SameHost s u)) ∧
    ((s.le.state = .joined ∨ s.le.state = .listen) →
      (s.spu.showState = .stopped ∨ (s.le.state = .listen ∧ s.le.localRunning = true)) →
      Completes (.breakSeen t) s (fun u =>
        u.spu = s.spu ∧ u.con = s.con ∧ u.psq = s.psq ∧ u.vsl = s.vsl ∧ SeesBreak t s u ∧
        SameClick s.cke u.cke ∧ SameHost s u))

/-- R32 to R34, R49, R58, R168: the owner of a slot of a clean round sends the head of its queue, marked in flight, or a
TALLY; a station that may not send drives nothing. A complete send removes the entry in flight unless it was
renewed, a failed one keeps it and counts a clash; then the waiting HALT stands at the front. The TALLY's bar, beat and vamp
are CKE's in every show state; that they are so after a stop made in COUNTIN too, where R168 also says the
snapshot's, is the model's choice (log entry 64). -/
def Obligations.SendsAreMadeAndSettled : Prop :=
  (∀ (s : State) (img : Image) (r : Round) (k : Fin 3), s.image = some img →
    s.le.round = some r → r.stage = .judged → s.le.breakDriving = none →
    (s.le.state = .joined ∨ s.le.state = .listen) →
    (∀ e rest, MaySend img s.le r k → s.le.queue = e :: rest →
      Completes (.talkSlotStart k) s (fun u =>
        u.le.drive = (e.message.raw img.station).chars ∧
        u.le.driveFrom = r.edge + (5 + 12 * k.val) * img.charTime ∧
        u.le.queue = { e with inFlight := true } :: rest ∧
        u.le.send = some
          { slot := k, length := (e.message.raw img.station).chars.length, queued := true } ∧
        OnlyLine s u)) ∧
    (MaySend img s.le r k → s.le.queue = [] →
      Completes (.talkSlotStart k) s (fun u =>
        u.le.drive = ((Message.tally
          { showId := img.showId.toNat, cue := s.spu.cue
            bar := if img.isFree s.spu.cue then img.startBar s.spu.cue else s.cke.bar
            beat := if img.isFree s.spu.cue then 1 else s.cke.beat
            pass := s.cke.pass, showState := s.spu.showState, vampActive := s.cke.vamp.isSome
            late := s.spu.late, suspect := s.spu.suspect
            camfail := s.vsl.camfail }).raw img.station).chars ∧
        u.le.driveFrom = r.edge + (5 + 12 * k.val) * img.charTime ∧
        u.le.queue = [] ∧ u.le.send = some { slot := k, length := 10, queued := false } ∧
        OnlyLine s u)) ∧
    (¬ MaySend img s.le r k →
      Completes (.talkSlotStart k) s (fun u => u.le = s.le ∧ OnlyLine s u))) ∧
  ∀ (s : State) (img : Image) (x : Send) (e : Entry) (rest : List Entry), s.image = some img →
    s.le.send = some x → s.le.queue = e :: rest → e.inFlight = true →
    (∀ y ∈ rest, y.inFlight = false) →
    Completes .sendComplete s (fun u =>
      u.le.queue =
        (match s.le.waitingHalt with
          | some h => [Entry.fresh (.halt h)]
          | none => []) ++
        (if e.renewed then [{ e with inFlight := false, renewed := false }] else []) ++ rest ∧
      u.le.waitingHalt = none ∧ u.le.send = none ∧ u.le.sentInSlot = true ∧
      u.le.drive = (if s.le.breakDriving = none then [] else s.le.drive) ∧
      u.le.clashCount = s.le.clashCount ∧ OnlyLine s u) ∧
    Completes .failedSend s (fun u =>
      u.le.queue =
        (match s.le.waitingHalt with
          | some h => [Entry.fresh (.halt h)]
          | none => []) ++ { e with inFlight := false, renewed := false } :: rest ∧
      u.le.waitingHalt = none ∧ u.le.send = none ∧
      u.le.drive = (if s.le.breakDriving = none then [] else s.le.drive) ∧
      u.le.clashCount = min (s.le.clashCount + 1) 255 ∧ OnlyLine s u)

/-- R44, R55, R130, R145, R164, R187: at a local talk slot start the head message is taken as sent and reaches the
station itself: a HALT in STOPPED, a TEMPO at a ranked station, a CAMERA; with an empty queue nothing is sent,
and no TALLY is made. -/
def Obligations.LocalSlotTakesHead : Prop :=
  ∀ (s : State) (img : Image) (r : LocalRound) (k : Fin 3), s.image = some img →
    s.le.localRunning = true → s.le.localRound = some r → r.stage = .judged →
    s.con.together = [] →
    (s.le.queue = [] →
      Completes (.localTalkSlotStart k) s (fun u =>
        u.le = s.le ∧ u.spu = s.spu ∧ u.psq = s.psq ∧ u.vsl = s.vsl ∧ u.con = s.con ∧
        SameClick s.cke u.cke ∧ SameHost s u)) ∧
    (∀ f rest e, s.le.queue = e :: rest → e.message = .halt f → s.spu.showState = .stopped →
      img.station ∉ s.spu.origin →
      Completes (.localTalkSlotStart k) s (fun u =>
        u.le = { s.le with queue := rest } ∧
        u.spu = { s.spu with origin := s.spu.origin ++ [img.station] } ∧
        u.con = s.conAfter .stop img.station 2 f.reason.code ∧ u.psq = s.psq ∧ u.vsl = s.vsl ∧
        SameClick s.cke u.cke ∧ SameHost s u)) ∧
    (∀ f rest e, s.le.queue = e :: rest → e.message = .tempo f → 300 ≤ f.tempo → f.tempo ≤ 3000 →
      img.isRanked img.station = true →
      Completes (.localTalkSlotStart k) s (fun u =>
        u.le = { s.le with queue := rest } ∧ u.cke.tempo = f.tempo ∧
        u.cke.override = some f.tempo ∧ u.cke.ramp = none ∧ u.cke.bar = s.cke.bar ∧
        u.cke.beat = s.cke.beat ∧ u.cke.lanes = s.cke.lanes ∧ u.spu = s.spu ∧ u.psq = s.psq ∧
        u.vsl = s.vsl ∧ u.con = s.con ∧ SameHost s u)) ∧
    ∀ x rest e, s.le.queue = e :: rest → e.message = .camera x →
      Completes (.localTalkSlotStart k) s (fun u =>
        u.le = { s.le with queue := rest } ∧ u.vsl.override = x ∧ u.vsl.live = s.vsl.live ∧
        (img.roles.video = true → u.vsl.desired =
          (match x with
            | some y => some y
            | none => if s.spu.showState = .preshow then some .front
              else some (s.vsl.table.getD s.spu.cue .front))) ∧
        u.spu = s.spu ∧ u.psq = s.psq ∧ u.con = s.con ∧ SameClick s.cke u.cke ∧ SameHost s u)

/-- R21 to R23, R52: the message decoder at a position of a talk slot, row by row: in IDLE a HEAD received good
begins a message or is counted bad, any other character but a break is short; in ASSEMBLING a BODY received
good is stored and the last one completes the message, anything else is short; in DONE a character is bad;
DISCARDING takes nothing. A talk slot end leaves the decoder IDLE, counts an unfinished message as short, and slot
2 ends the round; a receiver that has resynchronised takes characters again. -/
def Obligations.DecoderFollowsTable : Prop :=
  (∀ (s : State) (img : Image) (r : Round) (p : Nat) (w : Samples), s.image = some img →
    s.le.round = some r → r.stage = .judged → s.le.takesLine = true → s.le.resync = false →
    (∀ kind sender, s.le.decoder = .idle → sender < 24 →
      w = charBitsOf .head (BitVec.ofNat 8 (32 * kind.code + sender)) →
      Completes (.characterReceived p w) s (fun u =>
        u.le.decoder = .assembling kind sender [] ∧ u.le.shortCount = s.le.shortCount ∧
        u.le.badCount = s.le.badCount ∧ OnlyLine s u)) ∧
    (∀ d, s.le.decoder = .idle → w = charBitsOf .head d →
      (d.toNat / 32 = 0 ∨ d.toNat / 32 = 7 ∨ 24 ≤ d.toNat % 32) →
      Completes (.characterReceived p w) s (fun u =>
        u.le.decoder = .discarding ∧ u.le.badCount = min (s.le.badCount + 1) 255 ∧
        u.le.shortCount = s.le.shortCount ∧ OnlyLine s u)) ∧
    (∀ ch, s.le.decoder = .idle → receiveChar w = some ch → ch.error ≠ some .breakSeen →
      (ch.kind ≠ .head ∨ ch.error ≠ none) →
      Completes (.characterReceived p w) s (fun u =>
        u.le.decoder = .discarding ∧ u.le.shortCount = min (s.le.shortCount + 1) 255 ∧
        u.le.badCount = s.le.badCount ∧ OnlyLine s u)) ∧
    (∀ kind sender body d, s.le.decoder = .assembling kind sender body → w = charBitsOf .body d →
      Completes (.characterReceived p w) s (fun u =>
        (body.length + 1 < kind.bodies → u.le.decoder = .assembling kind sender (body ++ [d]) ∧
          u.le.received = s.le.received) ∧
        (kind.bodies ≤ body.length + 1 → u.le.decoder = .done ∧
          u.le.received = some { kind := kind, sender := sender, body := body ++ [d] }) ∧
        u.le.shortCount = s.le.shortCount ∧ u.le.badCount = s.le.badCount ∧ OnlyLine s u)) ∧
    (∀ kind sender body, s.le.decoder = .assembling kind sender body →
      (∀ ch, receiveChar w = some ch → ch.kind ≠ .body ∨ ch.error ≠ none) →
      Completes (.characterReceived p w) s (fun u =>
        u.le.decoder = .discarding ∧ u.le.shortCount = min (s.le.shortCount + 1) 255 ∧
        u.le.badCount = s.le.badCount ∧ OnlyLine s u)) ∧
    (∀ ch, s.le.decoder = .done → receiveChar w = some ch →
      Completes (.characterReceived p w) s (fun u =>
        u.le.decoder = .discarding ∧ u.le.badCount = min (s.le.badCount + 1) 255 ∧
        u.le.shortCount = s.le.shortCount ∧ OnlyLine s u)) ∧
    (s.le.decoder = .discarding ∨
        (s.le.decoder = .done ∧ receiveChar w = none) ∨
        (s.le.decoder = .idle ∧
          ∀ ch, receiveChar w = some ch → ch.error = some .breakSeen) →
      Completes (.characterReceived p w) s (fun u =>
        u.le.decoder = s.le.decoder ∧ u.le.shortCount = s.le.shortCount ∧
        u.le.badCount = s.le.badCount ∧ OnlyLine s u))) ∧
  (∀ (s : State) (img : Image) (r : Round) (k : Fin 3), s.image = some img →
    s.le.round = some r → r.stage = .judged → (s.le.state = .joined ∨ s.le.state = .listen) →
    Completes (.talkSlotEnd k) s (fun u =>
      u.le.decoder = .idle ∧ u.le.received = none ∧
      u.le.round = (if k = 2 then none else some r) ∧ u.le.queue = s.le.queue ∧
      u.le.badCount = s.le.badCount ∧
      (∀ kind sender body, s.le.decoder = .assembling kind sender body →
        u.le.shortCount = min (s.le.shortCount + 1) 255) ∧
      (s.le.decoder = .idle ∨ s.le.decoder = .done ∨ s.le.decoder = .discarding →
        u.le.shortCount = s.le.shortCount) ∧ OnlyLine s u)) ∧
  ∀ s : State, exec .receiverResynchronised s =
    .next { s with le := { s.le with resync := false } }

/-- R48, R53, R62: a message with fields in range, as its characters carry it, decodes to itself. -/
def Obligations.MessageBytesRoundTrip : Prop :=
  (∀ (cues k : Nat) (f : TallyFields), f.cue < cues → f.showId < 65536 → f.cue < 65536 →
    1 ≤ f.bar → f.bar ≤ 9999 → 1 ≤ f.beat → f.beat ≤ 16 → f.pass < 256 →
    (f.vampActive = true ↔ 0 < f.pass) → ((Message.tally f).raw k).parse cues = some (.tally f)) ∧
  (∀ (cues k : Nat) (f : CallFields), f.base < 65536 → f.target < 65536 →
    ((Message.call f).raw k).parse cues = some (.call f)) ∧
  (∀ (cues k : Nat) (f : TempoFields), 300 ≤ f.tempo → f.tempo ≤ 3000 →
    ((Message.tempo f).raw k).parse cues = some (.tempo f)) ∧
  (∀ (cues k : Nat) (f : HaltFields), ((Message.halt f).raw k).parse cues = some (.halt f)) ∧
  (∀ (cues k : Nat) (f : ResumeFields), f.cue < 65536 → f.bar < 65536 → f.countIn ≤ 4 →
    ((Message.resume f).raw k).parse cues = some (.resume f)) ∧
  ∀ (cues k : Nat) (x : Option Source),
    ((Message.camera x).raw k).parse cues = some (.camera x)

/-- R53, R54: the fields that make a message malformed; a message that is malformed, or that carries the
station's own number without a send of its own in the slot, is discarded and counted. -/
def Obligations.MalformedMessagesAreCounted : Prop :=
  (∀ (cues k : Nat) (w bh bl th tl : Byte), 1 < w.toNat →
    (RawMessage.parse cues { kind := .call, sender := k, body := [bh, bl, th, tl, w] }) = none) ∧
  (∀ (cues k : Nat) (hi lo w : Byte), hi.toNat * 256 + lo.toNat < 300 ∨
      3000 < hi.toNat * 256 + lo.toNat ∨ 1 < w.toNat →
    (RawMessage.parse cues { kind := .tempo, sender := k, body := [hi, lo, w] }) = none) ∧
  (∀ (cues k : Nat) (x d : Byte), 3 < x.toNat →
    (RawMessage.parse cues { kind := .halt, sender := k, body := [x, d] }) = none) ∧
  (∀ (cues k : Nat) (ch cl bh bl n m : Byte), 4 < n.toNat ∨ 8 ≤ m.toNat →
    (RawMessage.parse cues { kind := .resume, sender := k, body := [ch, cl, bh, bl, n, m] }) =
      none) ∧
  (∀ (cues k : Nat) (x : Byte), 3 < x.toNat →
    (RawMessage.parse cues { kind := .camera, sender := k, body := [x] }) = none) ∧
  (∀ (cues k : Nat) (sh sl ch cl bh bl beat pass st : Byte),
    (4 < st.toNat % 8 ∨ 128 ≤ st.toNat ∨ cues ≤ ch.toNat * 256 + cl.toNat ∨
      bh.toNat * 256 + bl.toNat = 0 ∨ 9999 < bh.toNat * 256 + bl.toNat ∨ beat.toNat = 0 ∨
      16 < beat.toNat ∨ (pass = 0 ∧ st.getLsbD 3 = true) ∨ (pass ≠ 0 ∧ st.getLsbD 3 = false)) →
    (RawMessage.parse cues
      { kind := .tally, sender := k, body := [sh, sl, ch, cl, bh, bl, beat, pass, st] }) = none) ∧
  ∀ (s : State) (img : Image) (raw : RawMessage), s.image = some img →
    s.le.received = some raw → s.le.takesLine = true →
    (raw.parse img.cueCount = none ∨
      (raw.sender = img.station ∧ s.le.sentInSlot = false ∧ s.le.send = none)) →
    exec .malformedMessage s = .next { s with le := { s.le with
      received := none, badCount := min (s.le.badCount + 1) 255 } }

/-! ## Arrivals (Chapters 3, 4, 6, 8, 9) -/

/-- R182, R183, R186: a TALLY in PRESHOW or RUN from the beat source (from any other station at a suspect beat source),
whose suspect bit is clear, gives its position and state to a station in PRESHOW, RUN or COUNTIN that differs; at
another cue the proposals are dropped, and where the cue or the state changes a CUE notice names the beat source as
last handed (log entry 28). One in COUNTIN gives a station in COUNTIN at its cue and bar the beat alone
(that the beat is clamped to the meter is log entry 27), and any other station nothing. At a suspect beat source the
reference wait counts clean rounds, and clears the flag at 8 or where the station is alone. -/
def Obligations.TallyIsAdopted : Prop :=
  (∀ (s : State) (img : Image) (k : Nat) (f : TallyFields), s.image = some img →
    Arrives img s k (.tally f) → Heeds img s k → f.suspect = false →
    img.roles.videoCritical = false → (f.showState = .preshow ∨ f.showState = .run) →
    (s.spu.showState = .preshow ∨ s.spu.showState = .run ∨ s.spu.showState = .countin) →
    (s.spu.suspect = true ∨ f.cue ≠ s.spu.cue ∨ f.bar ≠ s.shownBar img ∨
      f.beat ≠ s.shownBeat img ∨
      f.showState ≠ s.spu.showState) →
    Completes .tallyArrival s (fun u =>
      u.spu.cue = f.cue ∧ u.spu.showState = f.showState ∧ u.spu.suspect = false ∧
      u.spu.launchPending = false ∧ u.spu.restart = none ∧ u.spu.late = s.spu.late ∧
      u.spu.snapshot = s.spu.snapshot ∧ u.spu.ownStop = s.spu.ownStop ∧
      (img.isFree f.cue = false → u.cke.bar = f.bar) ∧
      u.cke.countIn = none ∧ u.le.queue = s.le.queue ∧ u.le.received = none ∧
      (∀ x, s.le.beatSource = some x → f.cue ≠ s.spu.cue ∨ f.showState ≠ s.spu.showState →
        Told u f.cue .cue x 4 0) ∧
      (f.cue = s.spu.cue → u.spu.proposal = s.spu.proposal ∧ u.spu.observed = s.spu.observed ∧
        u.spu.armed = s.spu.armed ∧ u.spu.lastTransition = s.spu.lastTransition ∧
        u.cke.part = s.cke.part ∧ u.cke.tempo = s.cke.tempo ∧
        (∀ p, s.cke.part = some p → img.isFree f.cue = false → f.beat ≤ p.meter →
          u.cke.beat = f.beat)) ∧
      (f.cue ≠ s.spu.cue → u.spu.proposal = none ∧ u.spu.observed = none ∧ u.spu.armed = none ∧
        u.spu.lastTransition = none ∧ u.psq.target = none ∧
        (∀ p, img.clickOf f.cue = some p → u.cke.part = some p ∧
          u.cke.beat = (if p.meter < f.beat then 1 else f.beat))) ∧ SameHost s u)) ∧
  (∀ (s : State) (img : Image) (k : Nat) (f : TallyFields), s.image = some img →
    Arrives img s k (.tally f) → Heeds img s k → f.suspect = false → f.showState = .countin →
    (s.spu.showState = .countin → f.cue = s.spu.cue → f.bar = s.shownBar img →
      (s.spu.suspect = true ∨ f.beat ≠ s.shownBeat img) →
      Completes .tallyArrival s (fun u =>
        u.spu = { s.spu with suspect := false, refWait := 0 } ∧
        (∀ p, s.cke.part = some p → u.cke.beat = if p.meter < f.beat then 1 else f.beat) ∧
        SameClick { s.cke with beat := u.cke.beat } u.cke ∧ u.psq = s.psq ∧ u.vsl = s.vsl ∧
        u.le.queue = s.le.queue ∧ SameHost s u)) ∧
    (s.spu.showState ≠ .countin ∨ f.cue ≠ s.spu.cue ∨ f.bar ≠ s.shownBar img →
      Completes .tallyArrival s (fun u =>
        u.spu = s.spu ∧ SameClick s.cke u.cke ∧ u.psq = s.psq ∧ u.vsl = s.vsl ∧
        u.le.queue = s.le.queue ∧ SameHost s u))) ∧
  ∀ (s : State) (img : Image) (r : Round) (d0 d1 d2 d3 : Byte) (v0 v1 v2 v3 : Samples),
    s.image = some img → s.le.state = .joined → s.le.localRunning = false →
    CleanRound r s d0 d1 d2 d3 [v0, v1, v2, v3] → s.holdsNothing →
    Completes (.voteFieldComplete v0 v1 v2 v3) s (fun u =>
      (img.reference (presenceMap d1 d2 d3) = some img.station → s.spu.suspect = true →
        (presenceMap d1 d2 d3 = stationSet img.station ∨ 8 ≤ s.spu.refWait + 1 →
          u.spu.suspect = false ∧ u.spu.refWait = 0) ∧
        (presenceMap d1 d2 d3 ≠ stationSet img.station → s.spu.refWait + 1 < 8 →
          u.spu.suspect = true ∧ u.spu.refWait = s.spu.refWait + 1)) ∧
      (img.reference (presenceMap d1 d2 d3) = some img.station → s.spu.suspect = false →
        u.spu.suspect = false) ∧
      (∀ x, img.reference (presenceMap d1 d2 d3) = some x → x ≠ img.station →
        u.spu.suspect = s.spu.suspect ∧ u.spu.refWait = 0))

/-- R110, R146, R167, R170, R182, R184 to R186: from the beat source (from any other station at a suspect beat source), a TALLY in STOPPED
stops a station in PRESHOW or RUN at the TALLY's position; one in PRESHOW or RUN takes a station out of STANDBY; one in
STANDBY takes a station in STOPPED without own-stop to STANDBY. Each posts its notice, which names the beat source as
last handed (log entry 28) where it is one of an adoption. VSL is handed the cue and the show state where either
changed, so that a station stopped in PRESHOW derives its source by the cue. -/
def Obligations.TallyMovesStopStates : Prop :=
  ∀ (s : State) (img : Image) (k : Nat) (f : TallyFields), s.image = some img →
    Arrives img s k (.tally f) → Heeds img s k → f.suspect = false →
    img.roles.videoCritical = false →
    (f.showState = .stopped → s.spu.showState = .preshow ∨ s.spu.showState = .run →
      Completes .tallyArrival s (fun u =>
        u.spu.showState = .stopped ∧ u.spu.cue = f.cue ∧ u.spu.suspect = false ∧
        u.spu.ownStop = s.spu.ownStop ∧ u.spu.proposal = none ∧ u.spu.armed = none ∧
        u.spu.snapshot.map (fun x => (x.cue, x.bar, x.beat, x.vamp)) =
          some (f.cue, f.bar, f.beat, if f.vampActive then some f.pass else none) ∧
        u.cke.bar = f.bar ∧ u.cke.beatTimer = none ∧ BeginsHold s.psq u.psq ∧
        (img.roles.video = true → u.vsl.desired =
          (match s.vsl.override with
            | some y => some y
            | none => some (s.vsl.table.getD f.cue .front)) ∧
          (u.vsl.desired ≠ s.vsl.desired →
            Rechosen img u.vsl ∧ u.vsl.camfail = (u.vsl.live != u.vsl.desired))) ∧
        u.vsl.override = s.vsl.override ∧ u.vsl.live = s.vsl.live ∧
        (∀ x, s.le.beatSource = some x → Told u s.spu.cue .stop x 5 0) ∧ SameHost s u)) ∧
    (f.showState = .preshow ∨ f.showState = .run → s.spu.showState = .standby →
      Completes .tallyArrival s (fun u =>
        u.spu.showState = f.showState ∧ u.spu.cue = f.cue ∧ u.spu.suspect = false ∧
        u.spu.snapshot = none ∧ u.spu.origin = [] ∧ u.spu.proposal = none ∧
        u.spu.late = s.spu.late ∧ u.cke.bar = f.bar ∧ u.psq.hold = false ∧ u.psq.target = none ∧
        (∀ x, s.le.beatSource = some x → Told u f.cue .cue x 4 0) ∧
        SameHost s u)) ∧
    (f.showState = .standby → s.spu.showState = .stopped → s.spu.ownStop = false →
      Completes .tallyArrival s (fun u =>
        u.spu.showState = .standby ∧ u.spu.cue = f.cue ∧ u.spu.suspect = false ∧
        u.spu.origin = s.spu.origin ∧ u.cke.bar = f.bar ∧ u.psq = s.psq ∧
        Told u f.cue .standby img.station s.spu.origin.length 1 ∧ SameHost s u))

/-- R54: a CALL or RESUME from a station outside the caller set and a TEMPO from an unranked one are ignored
with a notice; a TALLY with another show id is told once for its sender. -/
def Obligations.ArrivalChecksPostNotices : Prop :=
  ∀ (s : State) (img : Image) (k : Nat), s.image = some img → s.con.together = [] →
    (∀ f, Arrives img s k (.call f) → img.isCallerStation k = false →
      Completes .callArrival s (fun u =>
        u.con = s.conAfter .ignored k 2 0 ∧ u.spu = s.spu ∧ u.psq = s.psq ∧ u.vsl = s.vsl ∧
        SameClick s.cke u.cke ∧ TookMessage s u)) ∧
    (∀ f, Arrives img s k (.resume f) → img.isCallerStation k = false →
      Completes .resumeArrival s (fun u =>
        u.con = s.conAfter .ignored k 5 0 ∧ u.spu = s.spu ∧ u.psq = s.psq ∧ u.vsl = s.vsl ∧
        SameClick s.cke u.cke ∧ TookMessage s u)) ∧
    (∀ f, Arrives img s k (.tempo f) → img.isRanked k = false →
      Completes .tempoArrival s (fun u =>
        u.con = s.conAfter .ignored k 3 0 ∧ u.spu = s.spu ∧ u.psq = s.psq ∧ u.vsl = s.vsl ∧
        SameClick s.cke u.cke ∧ TookMessage s u)) ∧
    ∀ f, Arrives img s k (.tally f) → f.showId ≠ img.showId.toNat →
      s.le.mismatch.getLsbD k = false → s.le.beatSource ≠ some k →
      s.le.beatSource ≠ some img.station →
      Completes .tallyArrival s (fun u =>
        u.con = s.conAfter .showMismatch k (f.showId / 256) (f.showId % 256) ∧
        u.le = { s.le with received := none, mismatch := s.le.mismatch ||| stationSet k } ∧
        u.spu = s.spu ∧ u.psq = s.psq ∧ u.vsl = s.vsl ∧ SameClick s.cke u.cke ∧ SameHost s u)

/-- R69 to R71, R80, R98, R99, R103: a CALL from a caller: in STOPPED, STANDBY or COUNTIN a dissent; with nothing held, a CALL
that passes the checks is pending and its target handed to PSQ, which begins the loads and the recall for it; a suspect station other than the beat source
observes it; the beat source dissents to another base. -/
def Obligations.CallIsJudged : Prop :=
  ∀ (s : State) (img : Image) (k : Nat) (f : CallFields), s.image = some img →
    Arrives img s k (.call f) → img.isCallerStation k = true → s.con.together = [] →
    (s.spu.showState = .stopped ∨ s.spu.showState = .standby ∨ s.spu.showState = .countin →
      Completes .callArrival s (fun u =>
        u.spu = { s.spu with
          dissent := true, awaitingCall := s.spu.awaitingCall || k == img.station } ∧
        u.psq = s.psq ∧ u.con = s.con ∧ u.vsl = s.vsl ∧ SameClick s.cke u.cke ∧
        TookMessage s u)) ∧
    (s.spu.showState = .preshow ∨ s.spu.showState = .run → s.holdsNothing → f.target ≠ s.spu.cue →
      (s.spu.suspect = false ∨ s.le.beatSource = some img.station) → f.base = s.spu.cue →
      0 < f.target → f.target < img.cueCount →
      (s.spu.callWindow = none ∨ s.spu.callWindow = some f) →
      Completes .callArrival s (fun u =>
        u.spu = { s.spu with
          callWindow := some f
          proposal := some (.call { proposer := k, call := f, patience := img.patience }) } ∧
        HandsTarget s.psq u.psq { target := f.target, kind := .call } s.spu.cue ∧
        u.con = s.con ∧ u.vsl = s.vsl ∧ SameClick s.cke u.cke ∧ TookMessage s u)) ∧
    (s.spu.showState = .preshow ∨ s.spu.showState = .run → s.holdsNothing → f.target ≠ s.spu.cue →
      s.spu.suspect = true → s.le.beatSource ≠ some img.station →
      Completes .callArrival s (fun u =>
        u.spu = { s.spu with
          callWindow := some (s.spu.callWindow.getD f)
          observed := some { proposer := k, call := f, patience := img.patience } } ∧
        u.psq = s.psq ∧ u.con = s.con ∧ u.vsl = s.vsl ∧ SameClick s.cke u.cke ∧
        TookMessage s u)) ∧
    (s.spu.showState = .preshow ∨ s.spu.showState = .run → s.holdsNothing → f.target ≠ s.spu.cue →
      f.base ≠ s.spu.cue → s.le.beatSource = some img.station →
      Completes .callArrival s (fun u =>
        u.spu = { s.spu with
          callWindow := some (s.spu.callWindow.getD f)
          dissent := true, awaitingCall := s.spu.awaitingCall || k == img.station } ∧
        u.psq = s.psq ∧ u.con = s.con ∧ u.vsl = s.vsl ∧ SameClick s.cke u.cke ∧ TookMessage s u))

/-- R99, R103, R112, R173, R174: a RESUME from a caller: outside STANDBY a dissent; in STANDBY with none held, one that passes
the checks is pending and its cue handed to PSQ, which begins the recall for it, and one to a cue not RESUME-SAFE is a dissent. -/
def Obligations.ResumeIsJudged : Prop :=
  ∀ (s : State) (img : Image) (k : Nat) (f : ResumeFields), s.image = some img →
    Arrives img s k (.resume f) → img.isCallerStation k = true → s.con.together = [] →
    (s.spu.showState ≠ .standby →
      Completes .resumeArrival s (fun u =>
        u.spu = { s.spu with
          dissent := true, awaitingResume := s.spu.awaitingResume || k == img.station } ∧
        u.psq = s.psq ∧ u.con = s.con ∧ u.vsl = s.vsl ∧ SameClick s.cke u.cke ∧
        TookMessage s u)) ∧
    (s.spu.showState = .standby → s.spu.proposal = none → f.cue < img.cueCount →
      img.resumeSafe f.cue = true →
      (f.bar = 0 ∨ (img.startBar f.cue ≤ f.bar ∧ f.bar ≤ img.endBar f.cue)) →
      (s.spu.resumeWindow = none ∨ s.spu.resumeWindow = some f) →
      Completes .resumeArrival s (fun u =>
        u.spu = { s.spu with
          resumeWindow := some f
          proposal := some
            (.resume { proposer := k, resume := f, patience := img.resumePatience }) } ∧
        HandsTarget s.psq u.psq { target := f.cue, kind := .resume } s.spu.cue ∧
        u.con = s.con ∧ u.vsl = s.vsl ∧ SameClick s.cke u.cke ∧ TookMessage s u)) ∧
    (s.spu.showState = .standby → s.spu.proposal = none →
      (img.cueCount ≤ f.cue ∨ img.resumeSafe f.cue = false) →
      Completes .resumeArrival s (fun u =>
        u.spu = { s.spu with
          resumeWindow := some (s.spu.resumeWindow.getD f)
          dissent := true, awaitingResume := s.spu.awaitingResume || k == img.station } ∧
        u.psq = s.psq ∧ u.con = s.con ∧ u.vsl = s.vsl ∧ SameClick s.cke u.cke ∧ TookMessage s u))

/-- R110, R163 to R165, R167: a HALT enters STOPPED from PRESHOW and RUN; in STOPPED a sender new to the origin list
joins it and posts STOP, and one that is on it does nothing. -/
def Obligations.HaltEntersStopped : Prop :=
  ∀ (s : State) (img : Image) (k : Nat) (f : HaltFields), s.image = some img →
    Arrives img s k (.halt f) → s.con.together = [] →
    (s.spu.showState = .preshow ∨ s.spu.showState = .run → s.holdsNothing →
      Completes .haltArrival s (fun u =>
        u.spu.showState = .stopped ∧ u.spu.cue = s.spu.cue ∧ u.spu.ownStop = s.spu.ownStop ∧
        u.spu.origin = (if k ∈ s.spu.origin then s.spu.origin else s.spu.origin ++ [k]) ∧
        u.spu.launchPending = false ∧ u.con = s.conAfter .stop k 2 f.reason.code ∧
        BeginsHold s.psq u.psq ∧ u.cke.beatTimer = none ∧
        u.cke.bar = s.cke.bar ∧ u.cke.beat = s.cke.beat ∧ TookMessage s u)) ∧
    (s.spu.showState = .stopped → k ∉ s.spu.origin →
      Completes .haltArrival s (fun u =>
        u.spu = { s.spu with origin := s.spu.origin ++ [k] } ∧
        u.con = s.conAfter .stop k 2 f.reason.code ∧ u.psq = s.psq ∧ u.vsl = s.vsl ∧
        SameClick s.cke u.cke ∧ TookMessage s u)) ∧
    (s.spu.showState = .stopped → k ∈ s.spu.origin →
      Completes .haltArrival s (fun u =>
        u.spu = s.spu ∧ u.con = s.con ∧ u.psq = s.psq ∧ u.vsl = s.vsl ∧ SameClick s.cke u.cke ∧
        TookMessage s u))

/-- R130, R145, R146, R148, R150: a TEMPO from a ranked station sets the tempo and the override and ends a ramp, and "at
once" moves the pending beat expiry; a CAMERA sets or clears the override, and VSL derives its desired
source again; where it changes, VSL re-chooses and judges CAMFAIL. -/
def Obligations.TempoAndCameraArrive : Prop :=
  ∀ (s : State) (img : Image) (k : Nat), s.image = some img → s.con.together = [] →
    (∀ f, Arrives img s k (.tempo f) → img.isRanked k = true →
      Completes .tempoArrival s (fun u =>
        u.cke.tempo = f.tempo ∧ u.cke.override = some f.tempo ∧ u.cke.ramp = none ∧
        u.cke.bar = s.cke.bar ∧ u.cke.beat = s.cke.beat ∧ u.cke.vamp = s.cke.vamp ∧
        u.cke.launch = s.cke.launch ∧ u.cke.armedTarget = s.cke.armedTarget ∧
        u.cke.countIn = s.cke.countIn ∧ u.cke.compare = s.cke.compare ∧ u.cke.part = s.cke.part ∧
        u.cke.lanes = s.cke.lanes ∧ u.cke.tap = s.cke.tap ∧
        (∀ bt, s.cke.beatTimer = some bt → s.clickRuns = true →
          s.le.beatSource = some img.station →
          u.cke.beatTimer = some { bt with
            pending := if f.atOnce then s.now + 6000000 / f.tempo * 100000 else bt.pending }) ∧
        u.spu = s.spu ∧ u.psq = s.psq ∧ u.vsl = s.vsl ∧ u.con = s.con ∧ TookMessage s u)) ∧
    ∀ x, Arrives img s k (.camera x) →
      Completes .cameraArrival s (fun u =>
        u.vsl.override = x ∧ u.vsl.live = s.vsl.live ∧ u.vsl.monitors = s.vsl.monitors ∧
        (img.roles.video = true → u.vsl.desired =
          (match x with
            | some y => some y
            | none => if s.spu.showState = .preshow then some .front
              else some (s.vsl.table.getD s.spu.cue .front))) ∧
        (u.vsl.desired ≠ s.vsl.desired → Rechosen img u.vsl ∧
          u.vsl.camfail = (img.roles.video && u.vsl.live != u.vsl.desired)) ∧
        (u.vsl.desired = s.vsl.desired → u.vsl.pendingSwitch = s.vsl.pendingSwitch ∧
          u.vsl.camfail = s.vsl.camfail) ∧
        u.spu = s.spu ∧ u.psq = s.psq ∧ u.con = s.con ∧ SameClick s.cke u.cke ∧ TookMessage s u)

/-! ## The patch ports (Chapter 5) -/

/-- R98, R101 to R104, R106, R107, R110: a load step keeps the action it reads when its port matches; a scan step
examines the cue at the cursor, last action first, and records the first found for each port and slot. The last
step leaves the buffer STAGED, or, when it is due, fires it into an IDLE port or leaves it DEFERRED behind a hold
or a busy port (for a due buffer of a scan under a hold log entry 56); then the queued scan starts, where no fire has
started another before it (log entry 21). A port that joins the recall starts a scan, joins the one running for its
target, replaces one that owes no fire or that the due mark overrides, or goes into the queued scan. -/
def Obligations.LoadAndScanSteps : Prop :=
  (∀ (s : State) (img : Image) (p : Port) (t target next i : Nat) (kept : List Nat) (due : Bool)
    (a : PatchAction), s.image = some img →
    (s.psq.ports.get p).buffer = .loading target (.delta next kept) due →
    (img.patchOf target)[next]? = some i → img.pool[i]? = some a →
    (next + 1 < (img.patchOf target).length →
      Completes (.loadStep p t) s (fun u =>
        u.psq.ports = s.psq.ports.set p { s.psq.ports.get p with
          buffer := .loading target
            (.delta (next + 1) (if a.port = some p then kept ++ [i] else kept)) due } ∧
        u.psq.scan = s.psq.scan ∧ u.psq.target = s.psq.target ∧ u.psq.hold = s.psq.hold ∧
        u.now = max s.now t ∧ OnlyPatch s u)) ∧
    (next + 1 = (img.patchOf target).length → due = false →
      Completes (.loadStep p t) s (fun u =>
        u.psq.ports = s.psq.ports.set p { s.psq.ports.get p with
          buffer := .staged target .delta (if a.port = some p then kept ++ [i] else kept) } ∧
        u.psq.scan = s.psq.scan ∧ u.psq.target = s.psq.target ∧ u.psq.hold = s.psq.hold ∧
        OnlyPatch s u)) ∧
    (next + 1 = (img.patchOf target).length → due = true →
      (s.psq.hold = true ∨ (s.psq.ports.get p).state ≠ .idle) →
      Completes (.loadStep p t) s (fun u =>
        u.psq.ports = s.psq.ports.set p { s.psq.ports.get p with
          buffer := .deferred target .delta (if a.port = some p then kept ++ [i] else kept) } ∧
        u.psq.scan = s.psq.scan ∧ u.psq.target = s.psq.target ∧ u.psq.hold = s.psq.hold ∧
        OnlyPatch s u)) ∧
    (next + 1 = (img.patchOf target).length → due = true → s.psq.hold = false →
      (s.psq.ports.get p).state = .idle →
      Completes (.loadStep p t) s (fun u =>
        (u.psq.ports.get p).list = (if a.port = some p then kept ++ [i] else kept) ∧
        (u.psq.ports.get p).state =
          (if (if a.port = some p then kept ++ [i] else kept) = [] then .idle else .sending) ∧
        (u.psq.ports.get p).slots = (s.psq.ports.get p).slots ∧ OnlyPatch s u))) ∧
  (∀ (s : State) (img : Image) (p : Port) (t target next : Nat) (kept : List Nat),
    s.image = some img → img.patchOf target = [] →
    (s.psq.ports.get p).buffer = .loading target (.delta next kept) false →
    Completes (.loadStep p t) s (fun u =>
      u.psq.ports = s.psq.ports.set p { s.psq.ports.get p with
        buffer := .staged target .delta kept } ∧ OnlyPatch s u)) ∧
  (∀ (s : State) (img : Image) (sc : Scan) (t : Nat), s.image = some img →
    s.psq.scan = some sc →
    (1 < sc.cursor → allFound (sc.examine img) = false →
      Completes (.scanStep t) s (fun u =>
        u.psq = { s.psq with
          scan := some { sc with found := sc.examine img, cursor := sc.cursor - 1 } } ∧
        u.now = max s.now t ∧ OnlyPatch s u)) ∧
    ((sc.cursor ≤ 1 ∨ allFound (sc.examine img) = true) →
      (∀ p, sc.served.get p = true →
        ∃ x, (s.psq.ports.get p).buffer = .loading x .recall false) →
      Completes (.scanStep t) s (fun u =>
        (s.psq.queued = none → u.psq.scan = none) ∧
        (∀ w, s.psq.queued = some w → u.psq.queued = none ∧ u.psq.scan = some
          { target := w.target, purpose := w.purpose, cursor := w.target, served := w.served
            found := { a := List.replicate 16 none, b := List.replicate 16 none } }) ∧
        (∀ p x, sc.served.get p = true →
          (s.psq.ports.get p).buffer = .loading x .recall false →
          u.psq.ports.get p = { s.psq.ports.get p with
            buffer := .staged x .recall (((sc.examine img).get p).filterMap id) }) ∧
        (∀ p, sc.served.get p = false → u.psq.ports.get p = s.psq.ports.get p) ∧
        OnlyPatch s u)) ∧
    (∀ p x, (sc.cursor ≤ 1 ∨ allFound (sc.examine img) = true) → sc.served.get p = true →
      (s.psq.ports.get p).buffer = .loading x .recall true →
      Completes (.scanStep t) s (fun u =>
        (u.psq.ports.get p).slots = (s.psq.ports.get p).slots ∧
        (s.psq.hold = false → (s.psq.ports.get p).state = .idle →
          (u.psq.ports.get p).list = suppress img (s.psq.ports.get p).slots
            (((sc.examine img).get p).filterMap id) ∧
          (u.psq.ports.get p).state =
            (if (u.psq.ports.get p).list = [] then .idle else .sending)) ∧
        (s.psq.hold = true ∨ (s.psq.ports.get p).state ≠ .idle →
          u.psq.ports.get p = { s.psq.ports.get p with
            buffer := .deferred x .recall (((sc.examine img).get p).filterMap id) }) ∧
        (∀ w, s.psq.queued = some w →
          (s.psq.hold = true ∨ s.psq.target = none ∨
            ∀ p, sc.served.get p = true → (s.psq.ports.get p).state ≠ .idle) →
          u.psq.queued = none ∧ u.psq.scan = some
            { target := w.target, purpose := w.purpose, cursor := w.target, served := w.served
              found := { a := List.replicate 16 none, b := List.replicate 16 none } }) ∧
        OnlyPatch s u))) ∧
  (∀ (q : Psq) (p : Port) (t : Nat) (purpose : Purpose) (due : Bool),
    ((q.joinRecall p t purpose due).ports.get p) =
      { q.ports.get p with buffer := .loading t .recall due } ∧
    (q.scan = none → (q.joinRecall p t purpose due).queued = q.queued ∧
      (∀ x, x ≠ p → (q.joinRecall p t purpose due).ports.get x = q.ports.get x) ∧
      ∃ served, served.get p = true ∧ (∀ x, x ≠ p → served.get x = false) ∧
        (q.joinRecall p t purpose due).scan = some
          { target := t, purpose := purpose, cursor := t, served := served
            found := { a := List.replicate 16 none, b := List.replicate 16 none } }) ∧
    (∀ sc, q.scan = some sc → sc.target = t →
      (q.joinRecall p t purpose due).queued = q.queued ∧
      (∀ x, x ≠ p → (q.joinRecall p t purpose due).ports.get x = q.ports.get x) ∧
      (q.joinRecall p t purpose due).scan = some { sc with
        served := sc.served.set p true
        purpose := if sc.purpose = .resume ∨ purpose = .resume then .resume else .call }) ∧
    (∀ sc, q.scan = some sc → sc.target ≠ t →
      (due = true ∨ ∀ x, sc.served.get x = true → (q.ports.get x).buffer.owes = false) →
      (q.joinRecall p t purpose due).queued = q.queued ∧
      (∀ x, x ≠ p → (q.joinRecall p t purpose due).ports.get x =
        if sc.served.get x = true then { q.ports.get x with buffer := .empty } else q.ports.get x) ∧
      ∃ served, served.get p = true ∧ (∀ x, x ≠ p → served.get x = false) ∧
        (q.joinRecall p t purpose due).scan = some
          { target := t, purpose := purpose, cursor := t, served := served
            found := { a := List.replicate 16 none, b := List.replicate 16 none } }) ∧
    (∀ sc y, q.scan = some sc → sc.target ≠ t → due = false → sc.served.get y = true →
      (q.ports.get y).buffer.owes = true →
      (q.joinRecall p t purpose due).scan = q.scan ∧
      (∀ w, q.queued = some w → w.target = t →
        (∀ x, x ≠ p → (q.joinRecall p t purpose due).ports.get x = q.ports.get x) ∧
        (q.joinRecall p t purpose due).queued = some
          { target := t, served := w.served.set p true
            purpose := if w.purpose = .resume ∨ purpose = .resume then .resume else .call }) ∧
      (q.queued = none ∨ (∃ w, q.queued = some w ∧ w.target ≠ t) →
        (∀ x, x ≠ p → (∀ w, q.queued = some w → w.served.get x = true →
            (q.joinRecall p t purpose due).ports.get x = { q.ports.get x with buffer := .empty }) ∧
          ((∀ w, q.queued = some w → w.served.get x = false) →
            (q.joinRecall p t purpose due).ports.get x = q.ports.get x)) ∧
        ∃ served, served.get p = true ∧ (∀ x, x ≠ p → served.get x = false) ∧
          (q.joinRecall p t purpose due).queued =
            some { target := t, purpose := purpose, served := served }))) ∧
  ∀ (img : Image) (sc : Scan) (p : Port) (n : Nat),
    (∀ i, (sc.found.get p)[n]? = some (some i) → ((sc.examine img).get p)[n]? = some (some i)) ∧
    ((sc.found.get p)[n]? = some none →
      ((sc.examine img).get p)[n]? = some ((img.patchOf sc.cursor).filter (fun i =>
        match img.pool[i]? with
        | some a => a.port == some p && a.slot == n
        | none => false)).getLast?)

/-- R101, R103, R105 to R109, R111, R189: a fire request: the row each port takes and the PATCH-LATE reason of the row, what a row
does at its port, the suppression of a RECALL's references, the joins of the recall, the notices, and the end of
a hold before it. The joins and their scan are R101's and R103's; that a port which joins at a fire, of either form,
does so with purpose CALL is the model's choice, log entry 20. -/
def Obligations.FireRequestsAreServed : Prop :=
  (∀ (r : PortRec) (form : FireForm) (t : Nat),
    (r.buffer.owes = true → r.buffer.target = some t →
      fireRow r form t = .unchanged ∧ (fireRow r form t).reason = none) ∧
    (r.buffer.owes = true → r.buffer.target ≠ some t →
      fireRow r form t = .replaces ∧ (fireRow r form t).reason = some 2) ∧
    (∀ k refs, r.buffer = .staged t k refs → (form = .ordinary ∨ k = .recall) →
      ((r.state = .sending ∨ r.state = .settling) →
        fireRow r form t = .defers k refs ∧ (fireRow r form t).reason = some 1) ∧
      ((r.state = .idle ∨ r.state = .held) →
        fireRow r form t = .fires k refs ∧ (fireRow r form t).reason = none)) ∧
    (∀ load, r.buffer = .loading t load false → (form = .ordinary ∨ load = .recall) →
      fireRow r form t = .marksDue ∧ (fireRow r form t).reason = some 3) ∧
    (r.buffer = .empty ∨
        (∃ x k refs, r.buffer = .staged x k refs ∧ (x ≠ t ∨ (form = .recall ∧ k = .delta))) ∨
        (∃ x load, r.buffer = .loading x load false ∧
          (x ≠ t ∨ (form = .recall ∧ load ≠ .recall))) →
      fireRow r form t = .joins ∧ (fireRow r form t).reason = some 3)) ∧
  (∀ (q : Psq) (img : Image) (cue : Nat) (form : FireForm) (t : Nat) (p : Port), q.hold = false →
    ((q.fire img cue form t).ports.get p).slots = (q.ports.get p).slots ∧
    (∀ k refs, fireRow (q.ports.get p) form t = .fires k refs →
      ((q.fire img cue form t).ports.get p).list =
        (if k = .recall then suppress img (q.ports.get p).slots refs else refs) ∧
      ((q.fire img cue form t).ports.get p).state =
        (if ((q.fire img cue form t).ports.get p).list = [] then .idle else .sending)) ∧
    ((∀ k refs, fireRow (q.ports.get p) form t ≠ .fires k refs) →
      ((q.fire img cue form t).ports.get p).list = (q.ports.get p).list ∧
      ((q.fire img cue form t).ports.get p).state = (q.ports.get p).state)) ∧
  (∀ (q : Psq) (img : Image) (cue : Nat) (form : FireForm) (t : Nat) (p : Port), q.hold = false →
    q.target = none → q.scan = none → q.queued = none →
    (∀ k refs, fireRow (q.ports.get p) form t = .fires k refs →
      ((q.fire img cue form t).ports.get p).buffer =
        (if t + 1 < img.cues.length then .loading (t + 1) (.delta 0 []) false else .empty)) ∧
    (∀ k refs, fireRow (q.ports.get p) form t = .defers k refs →
      ((q.fire img cue form t).ports.get p).buffer = .deferred t k refs) ∧
    (∀ load, fireRow (q.ports.get p) form t = .marksDue →
      (q.ports.get p).buffer = .loading t load false →
      ((q.fire img cue form t).ports.get p).buffer = .loading t load true) ∧
    (fireRow (q.ports.get p) form t = .unchanged →
      ((q.fire img cue form t).ports.get p).buffer = (q.ports.get p).buffer) ∧
    (fireRow (q.ports.get p) form t = .replaces ∨ fireRow (q.ports.get p) form t = .joins →
      ((q.fire img cue form t).ports.get p).buffer = .loading t .recall true ∧
      ∃ served, served.get p = true ∧ (q.fire img cue form t).scan = some
        { target := t, purpose := .call, cursor := t, served := served
          found := { a := List.replicate 16 none, b := List.replicate 16 none } })) ∧
  (∀ (img : Image) (slots : List (Option Nat)) (refs : List Nat) (i : Nat) (a : PatchAction),
    img.pool[i]? = some a →
    (i ∈ suppress img slots refs ↔ i ∈ refs ∧ slots.getD a.slot none ≠ some i)) ∧
  (∀ (s : State) (img : Image) (form : FireForm) (t : Nat) (n : Notice), s.con.together = [] →
    (s.fireRequest img form t).spu = { s.spu with restartRecall := false } ∧
    (n ∈ (s.fireRequest img form t).con.together.map Prod.snd ↔
      ∃ p x, (fireRow (s.psq.endHold.ports.get p) form t).reason = some x ∧ n =
        { kind := .patchLate, round := s.le.roundCount, cue := s.spu.cue, station := img.station
          detail1 := if p = .a then 1 else 2, detail2 := x })) ∧
  ∀ (q : Psq) (img : Image) (cue : Nat) (form : FireForm) (t : Nat), q.hold = true →
    q.fire img cue form t = q.endHold.fire img cue form t ∧ q.endHold.hold = false ∧
    ∀ p, (q.endHold.ports.get p).slots = (q.ports.get p).slots ∧
      ((q.ports.get p).state = .sending ∨ (q.ports.get p).state = .settling →
        (q.endHold.ports.get p).state = (q.ports.get p).state ∧
        (q.endHold.ports.get p).list = (q.ports.get p).list.take 1) ∧
      ((q.ports.get p).state = .held ∨ (q.ports.get p).state = .idle →
        (q.endHold.ports.get p).state = .idle ∧ (q.endHold.ports.get p).list = []) ∧
      (∀ x k refs, (q.ports.get p).buffer = .deferred x k refs →
        (q.endHold.ports.get p).buffer = .empty) ∧
      (∀ x load due, (q.ports.get p).buffer = .loading x load due →
        (q.endHold.ports.get p).buffer = .loading x load false) ∧
      ∀ x k refs, (q.ports.get p).buffer = .staged x k refs →
        (q.endHold.ports.get p).buffer = (q.ports.get p).buffer

/-- R91, R95 to R97, R107: an action's bytes take 10 bit times each at the port's rate (whole nanoseconds, log entry
1). At the end of its last byte, and not before, it writes its slot and starts its settle time; at the expiry it
leaves the list, and the port sends the next, is HELD under a hold, or is IDLE, where a DEFERRED buffer fires. That
an ACTION_SENT before the end changes nothing is the model's choice (log entry 3). -/
def Obligations.ActionIsSentAndSettles : Prop :=
  (∀ (s : State) (img : Image) (p : Port) (t e i : Nat) (rest : List Nat) (a : PatchAction),
    s.image = some img → (s.psq.ports.get p).state = .sending →
    (s.psq.ports.get p).sendEnd = some e →
    (s.psq.ports.get p).list = i :: rest → img.pool[i]? = some a →
    (max s.now t < e → exec (.actionSent p t) s = .next s) ∧
    (e ≤ max s.now t → Completes (.actionSent p t) s (fun u =>
      u.psq.ports = s.psq.ports.set p { s.psq.ports.get p with
        slots := (s.psq.ports.get p).slots.set a.slot (some i)
        state := .settling, sendEnd := none
        settle := some (max s.now e + a.settle.getD 0 * 1000000) } ∧
      u.psq.scan = s.psq.scan ∧ u.psq.target = s.psq.target ∧ u.psq.hold = s.psq.hold ∧
      u.now = max s.now e ∧ OnlyPatch s u))) ∧
  (∀ (s : State) (img : Image) (p : Port) (e : Nat), s.image = some img →
    (s.psq.ports.get p).state = .settling → (s.psq.ports.get p).settle = some e →
    ((∀ t k refs, (s.psq.ports.get p).buffer ≠ .deferred t k refs) ∨ s.psq.hold = true ∨
      (s.psq.ports.get p).list.tail ≠ []) →
    Completes (.settleExpiry p) s (fun u =>
      (∀ o, o ≠ p → u.psq.ports.get o = s.psq.ports.get o) ∧
      (u.psq.ports.get p).list = (s.psq.ports.get p).list.tail ∧
      (u.psq.ports.get p).settle = none ∧
      (u.psq.ports.get p).buffer = (s.psq.ports.get p).buffer ∧
      (u.psq.ports.get p).slots = (s.psq.ports.get p).slots ∧
      (u.psq.ports.get p).state =
        (if (s.psq.ports.get p).list.tail = [] then .idle
         else if s.psq.hold then .held else .sending) ∧
      (∀ i rest b, (s.psq.ports.get p).list.tail = i :: rest → s.psq.hold = false →
        img.pool[i]? = some b → (u.psq.ports.get p).sendEnd =
          some (max s.now e + b.bytes.length * 10 * 1000000000 / img.portRates.get p)) ∧
      u.psq.scan = s.psq.scan ∧ u.psq.target = s.psq.target ∧ u.psq.hold = s.psq.hold ∧
      u.now = max s.now e ∧ OnlyPatch s u)) ∧
  ∀ (s : State) (img : Image) (p : Port) (e t : Nat) (k : BufferKind) (refs : List Nat),
    s.image = some img →
    (s.psq.ports.get p).state = .settling → (s.psq.ports.get p).settle = some e →
    (s.psq.ports.get p).buffer = .deferred t k refs →
    (s.psq.ports.get p).list.tail = [] → s.psq.hold = false →
    Completes (.settleExpiry p) s (fun u =>
      (u.psq.ports.get p).list =
        (if k = .recall then suppress img (s.psq.ports.get p).slots refs else refs) ∧
      (u.psq.ports.get p).state =
        (if (u.psq.ports.get p).list = [] then .idle else .sending) ∧
      (∀ i rest b, (u.psq.ports.get p).list = i :: rest → img.pool[i]? = some b →
        (u.psq.ports.get p).sendEnd =
          some (max s.now e + b.bytes.length * 10 * 1000000000 / img.portRates.get p)) ∧
      (u.psq.ports.get p).slots = (s.psq.ports.get p).slots ∧ u.psq.hold = false ∧ OnlyPatch s u)

/-! ## The click (Chapter 6) -/

/-- R118 to R120, R126, R127, R131: an expiry of the beat timer posts BEAT, and DOWNBEAT where the due beat is 1,
and reloads; the shadow timer's is its lapse; a SUB timer's sounds on the lanes and leaves the rest owed. A TAP at
a ranked station is the first one, or submits a TEMPO of the interval, clamped; the interval counts whole ticks
(log entry 34). At an unranked station, and on a line held since the press before, it does nothing. -/
def Obligations.ClickTimersAndTap : Prop :=
  (∀ (s : State) (img : Image) (bt : BeatTimer), s.image = some img → s.cke.beatTimer = some bt →
    Completes .beatTimerExpiry s (fun u =>
      u.cke = { s.cke with
        beatPosted := true
        downbeatPosted := s.cke.launch || decide (s.cke.meter ≤ s.cke.beat)
        dueSampled := false
        beatTimer := some
          { pending := bt.pending + 6000000 / s.cke.tempo * 100000, last := some bt.pending,
            reload := s.cke.tempo } } ∧
      u.now = max s.now bt.pending ∧ OnlyClick s u)) ∧
  (∀ (s : State) (img : Image) (e : Nat), s.image = some img → s.cke.shadow = .running e →
    Completes .shadowTimerExpiry s (fun u =>
      u.cke = { s.cke with shadow := .lapsed } ∧ u.now = max s.now e ∧ OnlyClick s u)) ∧
  (∀ (s : State) (img : Image) (e : Nat) (part : ClickPart), s.image = some img →
    s.cke.subNext = some e → s.cke.part = some part →
    Completes .subTimerExpiry s (fun u =>
      u.cke = { s.cke with
        lanes := Lanes.zip3With (laneSound .sub) img.lanes part.lanes s.cke.lanes
        subOwed := s.cke.subOwed - 1
        subNext := if 1 < s.cke.subOwed then some (e + s.cke.subInterval * 100000) else none } ∧
      u.now = max s.now e ∧ OnlyClick s u)) ∧
  ∀ (s : State) (img : Image) (t : Nat) (released : Bool), s.image = some img →
    (¬ Presses .tap released s → exec (.tapPress t released) s = .next s) ∧
    (Presses .tap released s → img.isRanked img.station = false →
      Completes (.tapPress t released) s (fun u => u.cke = s.cke ∧ u.le = s.le ∧ u.spu = s.spu ∧
        u.psq = s.psq ∧ u.vsl = s.vsl ∧ u.con = (s.pressed .tap).con ∧ SameHost s u)) ∧
    (Presses .tap released s → img.isRanked img.station = true →
      (s.cke.tap = none ∨ ∃ x, s.cke.tap = some x ∧ 20000 < (max s.now t - x) / 100000) →
      Completes (.tapPress t released) s (fun u =>
        u.cke = { s.cke with tap := some (max s.now t) } ∧ u.le = s.le ∧ u.spu = s.spu ∧
        u.psq = s.psq ∧ u.vsl = s.vsl ∧ u.con = (s.pressed .tap).con ∧ SameHost s u)) ∧
    (Presses .tap released s → img.isRanked img.station = true →
      ∀ x, s.cke.tap = some x → (max s.now t - x) / 100000 ≤ 20000 →
      Completes (.tapPress t released) s (fun u =>
        u.cke = { s.cke with tap := some (max s.now t) } ∧
        u.le = s.le.submitReplacing (.tempo
          { tempo := if (max s.now t - x) / 100000 = 0 then 3000
              else max 300 (min 3000 (6000000 / ((max s.now t - x) / 100000)))
            atOnce := false }) ∧
        u.spu = s.spu ∧ u.psq = s.psq ∧ u.vsl = s.vsl ∧ u.con = (s.pressed .tap).con ∧
        SameHost s u))

/-! ## Video (Chapter 7) -/

/-- R141, R143, R148 to R151, R153: a frame sync starts LOCKING, counts towards LOCKED, where VSL re-chooses, and on a
LOCKED input makes the pending switch to it, judges CAMFAIL and re-chooses; on the live source it begins a caption,
sent at 115200 bit/s. That the record's end is a whole nanosecond is the model's choice (log entry 1). -/
def Obligations.FrameSyncIsCounted : Prop :=
  ∀ (s : State) (img : Image) (i : Source) (t : Nat) (ready : Bool), s.image = some img →
    s.con.together = [] →
    (img.roles.video = false →
      Completes (.frameSync i t ready) s (fun u => u.vsl = s.vsl ∧ u.con = s.con ∧
        u.spu = s.spu ∧ u.le = s.le ∧ u.psq = s.psq ∧ u.cke = s.cke ∧ SameHost s u)) ∧
    (img.roles.video = true → (s.vsl.monitors.get i).lock ≠ .locked →
      Completes (.frameSync i t ready) s (fun u =>
        u.vsl.monitors = s.vsl.monitors.set i
          { lock := (match (s.vsl.monitors.get i).lock with
              | .locking g => if (s.vsl.monitors.get i).expired then .locking 0
                else if 8 ≤ g + 1 then .locked else .locking (g + 1)
              | _ => .locking 0)
            misses := 0, expired := false
            window := some (max s.now t + img.frameInterval * 100000) } ∧
        u.vsl.live = s.vsl.live ∧ u.vsl.composer = s.vsl.composer ∧ u.vsl.slate = s.vsl.slate ∧
        u.vsl.desired = s.vsl.desired ∧ u.vsl.camfail = s.vsl.camfail ∧ u.con = s.con ∧
        (∀ g, (s.vsl.monitors.get i).lock = .locking g → (s.vsl.monitors.get i).expired = false →
          8 ≤ g + 1 → Rechosen img u.vsl) ∧
        u.spu = s.spu ∧ u.le = s.le ∧ u.psq = s.psq ∧ u.cke = s.cke ∧ SameHost s u)) ∧
    (img.roles.video = true → (s.vsl.monitors.get i).lock = .locked →
      Completes (.frameSync i t ready) s (fun u =>
        (u.vsl.monitors.get i).lock = .locked ∧
        (u.vsl.monitors.get i).window = some (max s.now t + img.frameInterval * 100000) ∧
        (s.vsl.pendingSwitch = some i → u.vsl.live = some i ∧ u.vsl.slate = none ∧
          Rechosen img u.vsl ∧ u.vsl.camfail = (u.vsl.live != u.vsl.desired) ∧
          u.con = s.conAfter .camera img.station 1 (sourceCode i)) ∧
        (s.vsl.pendingSwitch ≠ some i → u.vsl.live = s.vsl.live ∧ u.vsl.slate = s.vsl.slate ∧
          u.vsl.pendingSwitch = s.vsl.pendingSwitch ∧ u.vsl.camfail = s.vsl.camfail ∧
          u.con = s.con) ∧
        u.vsl.composer =
          (if u.vsl.live = some i ∧ s.vsl.composer = .idle ∧ ready = true
            then .sending (s.caption img) (max s.now t + 16 * 10 * 1000000000 / 115200)
            else s.vsl.composer) ∧
        u.vsl.desired = s.vsl.desired ∧ u.vsl.override = s.vsl.override ∧ u.spu = s.spu ∧
        u.le = s.le ∧ u.psq = s.psq ∧ u.cke = s.cke ∧ SameHost s u))

/-- R144, R147, R148, R155: a frame window expiry on a LOCKING or LOCKED input is a miss, and on a LOCKING one marks the
window as expired; the third in a row unlocks the input, VSL re-chooses, and a live source that is lost leaves none
and starts the slate timer; at a VIDEO-CRITICAL station in RUN in a FREE cue it raises a stop. -/
def Obligations.WindowExpiryCountsMiss : Prop :=
  ∀ (s : State) (img : Image) (i : Source) (e : Nat), s.image = some img →
    (s.vsl.monitors.get i).window = some e →
    ((s.vsl.monitors.get i).lock = .locked ∨ ∃ g, (s.vsl.monitors.get i).lock = .locking g) →
    s.con.together = [] →
    ((s.vsl.monitors.get i).misses < 2 →
      Completes (.frameWindowExpiry i) s (fun u =>
        u.vsl = { s.vsl with monitors := s.vsl.monitors.set i { s.vsl.monitors.get i with
          misses := (s.vsl.monitors.get i).misses + 1
          expired := if (s.vsl.monitors.get i).lock = .locked then (s.vsl.monitors.get i).expired
            else true
          window := some (e + img.frameInterval * 100000) } } ∧
        u.con = s.con ∧ u.spu = s.spu ∧ u.le = s.le ∧ u.psq = s.psq ∧ SameClick s.cke u.cke ∧
        SameHost s u)) ∧
    (2 ≤ (s.vsl.monitors.get i).misses → s.vsl.live = some i →
      (img.roles.videoCritical = false ∨ s.spu.showState ≠ .run ∨ img.isFree s.spu.cue = false ∨
        s.spu.ownStop = true) →
      Completes (.frameWindowExpiry i) s (fun u =>
        u.vsl.monitors = s.vsl.monitors.set i Monitor.cold ∧ u.vsl.live = none ∧
        u.vsl.slate = some (e + img.frameInterval * 100000) ∧
        u.vsl.camfail = (img.roles.video && s.vsl.desired.isSome) ∧ Rechosen img u.vsl ∧
        u.con = s.conAfter .camera img.station 1 3 ∧ u.spu = s.spu ∧ u.le = s.le ∧
        u.psq = s.psq ∧ SameClick s.cke u.cke ∧ SameHost s u)) ∧
    (2 ≤ (s.vsl.monitors.get i).misses → s.vsl.live = some i → img.roles.videoCritical = true →
      s.spu.showState = .run → img.isFree s.spu.cue = true → s.spu.ownStop = false →
      Completes (.frameWindowExpiry i) s (fun u =>
        u.vsl.live = none ∧ Rechosen img u.vsl ∧ u.spu.ownStop = true ∧ u.spu.stopPosted = true ∧
        u.spu.showState = .stopped ∧ u.psq.hold = true ∧ u.spu.cue = s.spu.cue)) ∧
    (2 ≤ (s.vsl.monitors.get i).misses → s.vsl.live ≠ some i →
      Completes (.frameWindowExpiry i) s (fun u =>
        u.vsl.monitors = s.vsl.monitors.set i Monitor.cold ∧ u.vsl.live = s.vsl.live ∧
        u.vsl.slate = s.vsl.slate ∧ u.vsl.camfail = s.vsl.camfail ∧ Rechosen img u.vsl ∧
        u.con = s.con ∧ u.spu = s.spu ∧ u.le = s.le ∧ u.psq = s.psq ∧ SameClick s.cke u.cke ∧
        SameHost s u))

/-- R63, R129, R141, R152 to R154: a slate timer expiry restarts it and is a frame boundary for the composer. A record
is the label, the bar and the beat in digits and the state word, in STOPPED and STANDBY of the snapshot held.
Caption sent, at the end of the record, leaves the composer idle; 1 to 16 bytes are left before it, and the output
is high at rest. That CAPTION_SENT with an idle composer changes nothing (log entry 3), and that the record's end
is a whole nanosecond (log entry 1), are the model's choices. -/
def Obligations.SlateAndCaptionRun : Prop :=
  (∀ (s : State) (img : Image) (e : Nat) (ready : Bool), s.image = some img →
    s.vsl.slate = some e →
    Completes (.slateTimerExpiry ready) s (fun u =>
      u.vsl = { s.vsl with
        slate := some (e + img.frameInterval * 100000)
        composer := if s.vsl.composer = .idle ∧ ready = true
          then .sending (s.caption img) (max s.now e + 16 * 10 * 1000000000 / 115200)
          else s.vsl.composer } ∧
      u.con = s.con ∧ u.spu = s.spu ∧ u.le = s.le ∧ u.psq = s.psq ∧ u.cke = s.cke ∧
      SameHost s u)) ∧
  (∀ (s : State) (record : List Byte) (e : Nat), s.vsl.composer = .sending record e →
    exec .captionSent s =
      .next { s with now := max s.now e, vsl := { s.vsl with composer := .idle } }) ∧
  (∀ s : State, s.vsl.composer = .idle → exec .captionSent s = .next s) ∧
  (∀ (s : State) (img : Image) (cue bar beat : Nat),
    ((s.spu.showState = .stopped ∨ s.spu.showState = .standby) ∧
        (∃ x, s.spu.snapshot = some x ∧ x.cue = cue ∧ x.bar = bar ∧ x.beat = beat)) ∨
      ((s.spu.showState ≠ .stopped ∧ s.spu.showState ≠ .standby ∨ s.spu.snapshot = none) ∧
        cue = s.spu.cue ∧
        bar = (if img.isFree s.spu.cue then img.startBar s.spu.cue else s.cke.bar) ∧
        beat = (if img.isFree s.spu.cue then 1 else s.cke.beat)) →
    (s.caption img).take 13 = img.labelOf cue ++
      [32, loByte (48 + bar / 1000 % 10), loByte (48 + bar / 100 % 10), loByte (48 + bar / 10 % 10),
       loByte (48 + bar % 10), 46, loByte (48 + beat / 10 % 10), loByte (48 + beat % 10), 32]) ∧
  (∀ (s : State) (img : Image), (img.labelOf s.spu.cue).length = 4 ∧ (s.caption img).length = 16 ∧
    (s.spu.showState = .stopped → (s.caption img).drop 13 = [83, 84, 80]) ∧
    (s.spu.showState = .standby → (s.caption img).drop 13 = [83, 66, 89]) ∧
    (s.spu.showState = .countin → (s.caption img).drop 13 = [67, 78, 84]) ∧
    (s.spu.showState = .preshow ∨ s.spu.showState = .run →
      (s.spu.late = true → (s.caption img).drop 13 = [76, 65, 84]) ∧
      (s.spu.late = false → s.cke.vamp ≠ none → (s.caption img).drop 13 = [86, 77, 80]) ∧
      (s.spu.late = false → s.cke.vamp = none → s.spu.showState = .run →
        img.isFree s.spu.cue = true → (s.caption img).drop 13 = [70, 82, 69]) ∧
      (s.spu.late = false → s.cke.vamp = none → s.spu.showState = .preshow →
        (s.caption img).drop 13 = [80, 82, 69]) ∧
      (s.spu.late = false → s.cke.vamp = none → s.spu.showState = .run →
        img.isFree s.spu.cue = false → (s.caption img).drop 13 = [82, 85, 78]))) ∧
  ∀ (v : Vsl) (record : List Byte) (e now : Nat),
    (v.composer = .idle → v.captionLevel now = true ∧ v.composer.bytesLeft now = 0) ∧
    (v.composer = .sending record e → now < e → e ≤ now + 16 * 10 * 1000000000 / 115200 →
      1 ≤ v.composer.bytesLeft now ∧ v.composer.bytesLeft now ≤ 16)

/-! ## Stops, releases and the operator's inputs (Chapters 4, 8, 10) -/

/-- R35, R110, R159, R160, R162, R163, R165, R166, R17, R195: a stop request from the button, SAFETY or the console raises a stop
unless own-stop is set: STOP is posted, a HALT is submitted, and a station that is not in STOPPED enters it. In
JOINED a break is requested: it merges into one waiting, or into one still being driven at the request's instant,
and is kept where the break driven last has ended. That each request carries its instant is log entry 1. A press on a held line, a press with no image held and a SAFETY level already asserted
raise nothing. -/
def Obligations.StopRequestsRaise : Prop :=
  (∀ (s : State) (img : Image) (c : Instr) (reason : StopReason) (detail : Byte)
      (t : Nat),
    s.image = some img → RequestsStop c s reason detail t → s.con.together = [] →
    (s.spu.ownStop = false → s.holdsNothing → s.spu.showState ≠ .stopped →
      Completes c s (fun u =>
        u.spu.ownStop = true ∧ u.spu.stopPosted = true ∧ u.spu.showState = .stopped ∧
        u.spu.cue = s.spu.cue ∧ u.spu.origin = s.spu.origin ∧ u.spu.restart = none ∧
        (s.spu.showState = .preshow ∨ s.spu.showState = .run → u.spu.snapshot = some
          { cue := s.spu.cue, bar := s.shownBar img, beat := s.shownBeat img,
            vamp := s.cke.vamp.map VampState.pass, tempo := s.cke.tempo,
            tempoOverride := s.cke.override, cameraOverride := s.vsl.override }) ∧
        (∀ x, s.spu.showState = .countin → s.spu.restart = some x → u.spu.snapshot = some
          { cue := s.spu.cue, bar := x.bar, beat := 1, vamp := x.pass, tempo := s.cke.tempo,
            tempoOverride := s.cke.override, cameraOverride := s.vsl.override }) ∧
        (s.spu.showState = .standby → u.spu.snapshot = s.spu.snapshot) ∧
        u.le = { s.le.submitHalt { reason := reason, detail := detail } with
          breakPending := KeepsBreak s.le (max s.now t) } ∧ u.now = max s.now t ∧
        u.con.notices = (s.conAfter .stop img.station 1 reason.code).notices ∧ StopTold c u ∧
        BeginsHold s.psq u.psq ∧ u.cke.beatTimer = none ∧ u.cke.countIn = none ∧
        u.cke.bar = s.cke.bar ∧ u.vsl = s.vsl ∧ SameHost s u)) ∧
    (s.spu.ownStop = false → s.spu.showState = .stopped →
      Completes c s (fun u =>
        u.spu = { s.spu with ownStop := true, stopPosted := true } ∧
        u.le = { s.le.submitHalt { reason := reason, detail := detail } with
          breakPending := KeepsBreak s.le (max s.now t) } ∧ u.now = max s.now t ∧
        u.con.notices = s.con.notices ∧ StopTold c u ∧ u.psq = s.psq ∧ u.vsl = s.vsl ∧
        SameClick s.cke u.cke ∧ SameHost s u)) ∧
    (s.spu.ownStop = true →
      Completes c s (fun u =>
        u.spu = s.spu ∧ u.le = s.le ∧ u.psq = s.psq ∧ u.vsl = s.vsl ∧ u.now = max s.now t ∧
        u.con.notices = s.con.notices ∧ StopTold c u ∧ SameClick s.cke u.cke ∧ SameHost s u))) ∧
  ∀ (s : State) (released : Bool) (t : Nat),
    (¬ Presses .stop released s → exec (.stopPress released t) s = .next s) ∧
    (Presses .stop released s → s.image = none →
      exec (.stopPress released t) s = .next (s.pressed .stop)) ∧
    (s.con.safetyLine = true → exec (.safetyAssertion t) s = .next s) ∧
    (s.image = none →
      exec (.safetyAssertion t) s = .next { s with con := { s.con with safetyLine := true } })

/-- R169, R160, R17, R195: a release request: with SAFETY asserted it is refused with STOP (6, 2); else a station with
own-stop set clears it, withdraws STOP and posts STOP (7, 0); else nothing. The console one is answered
REFUSED or OK. A press on a held line, or with no image held, requests nothing. The fall of SAFETY does nothing
else. -/
def Obligations.ReleaseIsJudged : Prop :=
  (∀ (s : State) (img : Image) (released : Bool), s.image = some img → s.con.together = [] →
    Presses .release released s →
    exec (.releasePress released) s = .next
      (if s.con.safetyLine then
         { s with con := (s.pressed .release).conAfter .stop img.station 6 2 }
       else if s.spu.ownStop then
         { s with
           spu := { s.spu with ownStop := false, stopPosted := false }
           con := (s.pressed .release).conAfter .stop img.station 7 0 }
       else s.pressed .release)) ∧
  (∀ (s : State) (released : Bool),
    (¬ Presses .release released s → exec (.releasePress released) s = .next s) ∧
    (Presses .release released s → s.image = none →
      exec (.releasePress released) s = .next (s.pressed .release))) ∧
  (∀ (s : State) (img : Image), s.image = some img → s.con.together = [] →
    exec .consoleRelease s = .next
      (if s.con.safetyLine then
         { s with con := { s.conAfter .stop img.station 6 2 with frame := .other, reply := [1] } }
       else if s.spu.ownStop then
         { s with
           spu := { s.spu with ownStop := false, stopPosted := false }
           con := { s.conAfter .stop img.station 7 0 with frame := .other, reply := [0] } }
       else { s with con := { s.con with frame := .other, reply := [0] } })) ∧
  ∀ s : State,
    exec .safetyDeassertion s = .next { s with con := { s.con with safetyLine := false } }

/-- R67, R17, R57, R195: a GO request from GO_PRESS or the console submits a CALL in PRESHOW and RUN at a caller outside
local running; elsewhere it is refused, and a console one with a target or "when" out of range is BADARG. A press
on a held line, or with no image held, requests nothing. -/
def Obligations.GoRequestsSubmitCall : Prop :=
  (∀ (s : State) (img : Image), s.image = some img →
    ((img.roles.caller = false ∨ s.le.localRunning = true ∨
        (s.spu.showState ≠ .preshow ∧ s.spu.showState ≠ .run)) →
      (∀ released, Presses .go released s → exec (.goPress released) s = .next (s.pressed .go)) ∧
      ∀ x w, exec (.consoleGo x w) s =
        .next { s with con := { s.con with frame := .other, reply := [1] } }) ∧
    (img.roles.caller = true → s.le.localRunning = false →
      (s.spu.showState = .preshow ∨ s.spu.showState = .run) →
      (∀ released, Presses .go released s →
        exec (.goPress released) s = .next { s.pressed .go with
          le := s.le.submitReplacing (.call
            { base := s.spu.cue, target := s.spu.cue + 1, downbeat := img.goDownbeat }) }) ∧
      (∀ (x : BitVec 16) (w : Byte), 0 < x.toNat → x.toNat < img.cueCount →
        x.toNat ≠ s.spu.cue → w.toNat ≤ 1 →
        exec (.consoleGo x w) s = .next { s with
          le := s.le.submitReplacing (.call
            { base := s.spu.cue, target := x.toNat, downbeat := decide (w.toNat = 1) })
          con := { s.con with frame := .other, reply := [0] } }) ∧
      ∀ (x : BitVec 16) (w : Byte),
        (x = 0 ∨ img.cueCount ≤ x.toNat ∨ x.toNat = s.spu.cue ∨ 1 < w.toNat) →
        exec (.consoleGo x w) s =
          .next { s with con := { s.con with frame := .other, reply := [3] } })) ∧
  ∀ (s : State) (released : Bool),
    (¬ Presses .go released s → exec (.goPress released) s = .next s) ∧
    (Presses .go released s → s.image = none →
      exec (.goPress released) s = .next (s.pressed .go))

/-! ## The console port (Chapter 10) -/

/-- R64, R190: a console frame by its bytes. A byte is shifted most significant bit first; the command byte and its
arguments spell the command, which is taken at the last argument byte, and an unlisted code at the command byte;
the frame shifts out the status byte, 0 for each argument, the reply, and 0 after it. -/
def Obligations.ConsoleFramesAreRead : Prop :=
  (∀ b : Byte, shiftIn (shiftOut b) = b ∧
    ∀ k, k < 8 → (shiftOut b)[k]? = some (b.getLsbD (7 - k))) ∧
  (∀ hi lo bh bl w m : Byte, ∀ rest : List Byte,
    frameCommand (0x01 :: rest) = some .consoleStatus ∧
    frameCommand (0x02 :: rest) = some .consolePosition ∧
    frameCommand (0x03 :: rest) = some .consoleNotice ∧
    frameCommand (0x10 :: hi :: lo :: w :: rest) = some (.consoleGo (hi ++ lo) w) ∧
    frameCommand (0x11 :: w :: rest) = some (.consoleStop w) ∧
    frameCommand (0x12 :: rest) = some .consoleRelease ∧
    frameCommand (0x13 :: hi :: lo :: bh :: bl :: w :: m :: rest) =
      some (.consoleResume (hi ++ lo) (bh ++ bl) w m) ∧
    frameCommand (0x14 :: w :: rest) = some (.consoleCamera w) ∧
    frameCommand (0x15 :: hi :: lo :: w :: rest) = some (.consoleTempo (hi ++ lo) w) ∧
    frameCommand (0x16 :: w :: rest) = some (.consoleAttend w) ∧
    frameCommand (0x1F :: rest) = some .consoleRestart) ∧
  (∀ (code : Byte) (rest : List Byte), code ∉ listedCodes →
    frameCommand (code :: rest) = some (.unknownCommand code)) ∧
  (∀ (code : Byte) (bytes : List Byte) (n : Nat), consoleArgs code = some n → bytes.length < n →
    frameCommand (code :: bytes) = none) ∧
  (∀ (s u : State) (args : Nat),
    frameByte s args u 0 = s.statusByte ∧
    (∀ k, 1 ≤ k → k ≤ args → frameByte s args u k = 0) ∧
    (∀ k b, u.con.reply[k]? = some b → frameByte s args u (args + 1 + k) = b) ∧
    ∀ k, args + 1 + u.con.reply.length ≤ k → frameByte s args u k = 0) ∧
  ∀ s : State, s.statusByte.toNat = s.le.state.code +
    (if s.image.isSome then 4 * s.spu.showState.code else 0) +
    (if s.con.notices = [] then 0 else 32) + (if s.con.overflow then 64 else 0) +
    (if s.image.isSome ∧ s.spu.ownStop = true then 128 else 0)

/-- R64, R65, R129, R191, R193, R194: the reads: STATUS and POSITION answer their bytes, NOTICE the oldest record or
zeros; the record leaves at the end of its reply, and the overflow flag clears at the end of a STATUS reply
that carried it unless a record was discarded since. The bits of the flags byte are those of R64, and with no image
held it and the show state tell nothing of SPU. -/
def Obligations.ConsoleReadsAnswer : Prop :=
  (∀ s : State, exec .consoleStatus s = .next { s with con := { s.con with
    frame := .status s.con.overflow false
    reply := [0, loByte s.con.loader.code, loByte s.le.state.code,
      loByte (if s.image.isSome then s.spu.showState.code else 0), s.flagsByte,
      loByte s.le.clashCount, loByte s.le.lineFaultCount, loByte s.le.shortCount,
      loByte s.le.badCount,
      loByte (match s.image with
        | some img => img.station
        | none => 255)] } }) ∧
  (∀ (s : State) (img : Image) (bar beat : Nat), s.image = some img →
    bar = (if img.isFree s.spu.cue then img.startBar s.spu.cue else s.cke.bar) →
    beat = (if img.isFree s.spu.cue then 1 else s.cke.beat) →
    exec .consolePosition s = .next { s with con := { s.con with
      frame := .other
      reply := [0, hiByte s.spu.cue, loByte s.spu.cue] ++ img.labelOf s.spu.cue ++
        [hiByte bar, loByte bar, loByte beat, loByte s.cke.pass,
         hiByte s.cke.tempo, loByte s.cke.tempo] } }) ∧
  (∀ (s : State) (n : Notice) (rest : List Notice), s.con.notices = n :: rest →
    exec .consoleNotice s = .next { s with con := { s.con with
      frame := .notice
      reply := [0, loByte n.kind.code, n.round, hiByte n.cue, loByte n.cue, loByte n.station,
        loByte n.detail1, loByte n.detail2] } }) ∧
  (∀ s : State, s.con.notices = [] → exec .consoleNotice s =
    .next { s with con := { s.con with frame := .other, reply := List.replicate 8 0 } }) ∧
  (∀ s : State, s.con.frame = .notice → exec .noticeRemoval s =
    .next { s with con := { s.con with notices := s.con.notices.tail, frame := .other } }) ∧
  (∀ s : State,
    s.flagsByte.getLsbD 0 = (s.image.isSome && s.spu.suspect) ∧
    s.flagsByte.getLsbD 1 = (s.image.isSome && s.spu.late) ∧
    s.flagsByte.getLsbD 2 = (s.image.isSome && s.spu.launchPending) ∧
    s.flagsByte.getLsbD 3 = (s.image.isSome && s.spu.armed.isSome) ∧
    s.flagsByte.getLsbD 4 = (s.image.isSome && s.spu.ownStop) ∧
    (s.flagsByte.getLsbD 5 = true ↔ s.image.isSome = true ∧ ∃ h, s.spu.proposal = some (.call h)) ∧
    (s.flagsByte.getLsbD 6 = true ↔
      s.image.isSome = true ∧ ∃ h, s.spu.proposal = some (.resume h)) ∧
    s.flagsByte.getLsbD 7 = s.con.overflow) ∧
  ∀ (s : State) (captured discarded : Bool), s.con.frame = .status captured discarded →
    exec .overflowClear s = .next { s with con := { s.con with
      frame := .other
      overflow := if captured && !discarded then false else s.con.overflow } }

/-- R17, R57, R172, R190 to R192, R196: the console's other requests and their replies: RESUME, CAMERA, TEMPO and
RESTART, a code that is not listed (in every loader state, log entry 47), and the refusal of a station that
holds no image. The ATTEND contribution is posted while the line or the console flag asks. -/
def Obligations.ConsoleRequestsAreAnswered : Prop :=
  (∀ (s : State) (img : Image) (cue bar : BitVec 16) (n m : Byte) (f : ResumeFields),
    s.image = some img →
    f = { cue := cue.toNat, bar := bar.toNat, countIn := n.toNat
          mask := { tempo := m.getLsbD 0, camera := m.getLsbD 1, vamp := m.getLsbD 2 } } →
    (img.roles.caller = false ∨ s.le.localRunning = true → exec (.consoleResume cue bar n m) s =
      .next { s with con := { s.con with frame := .other, reply := [1] } }) ∧
    (img.roles.caller = true → s.le.localRunning = false →
      (img.cueCount ≤ cue.toNat ∨ 9999 < bar.toNat ∨ 4 < n.toNat ∨ 8 ≤ m.toNat) →
      exec (.consoleResume cue bar n m) s =
        .next { s with con := { s.con with frame := .other, reply := [3] } }) ∧
    (img.roles.caller = true → s.le.localRunning = false → cue.toNat < img.cueCount →
      bar.toNat ≤ 9999 → n.toNat ≤ 4 → m.toNat < 8 →
      (s.le.holds .resume = false → exec (.consoleResume cue bar n m) s = .next { s with
        le := { s.le with queue := s.le.queue ++ [Entry.fresh (.resume f)] }
        con := { s.con with frame := .other, reply := [0] } }) ∧
      (∀ e g, e ∈ s.le.queue → e.message = .resume g → g ≠ f →
        exec (.consoleResume cue bar n m) s =
          .next { s with con := { s.con with frame := .other, reply := [2] } }) ∧
      (s.le.holds .resume = true →
        (∀ e ∈ s.le.queue, e.message.kind = .resume → e.message = .resume f) →
        exec (.consoleResume cue bar n m) s =
          .next { s with con := { s.con with frame := .other, reply := [0] } }))) ∧
  (∀ (s : State) (img : Image) (x : Byte), s.image = some img →
    exec (.consoleCamera x) s = .next
      (if 3 < x.toNat then { s with con := { s.con with frame := .other, reply := [3] } }
       else { s with
         le := s.le.submitReplacing (.camera
           (if x = 0 then some .front else if x = 1 then some .lowlight
            else if x = 2 then some .wide else none))
         con := { s.con with frame := .other, reply := [0] } })) ∧
  (∀ (s : State) (img : Image) (x : BitVec 16) (w : Byte), s.image = some img →
    exec (.consoleTempo x w) s = .next
      (if x.toNat < 300 ∨ 3000 < x.toNat ∨ 1 < w.toNat then
         { s with con := { s.con with frame := .other, reply := [3] } }
       else { s with
         le := s.le.submitReplacing (.tempo { tempo := x.toNat, atOnce := decide (w.toNat = 1) })
         con := { s.con with frame := .other, reply := [0] } })) ∧
  (∀ (s : State) (img : Image), s.image = some img → exec .consoleRestart s =
    .next { s with con := { s.con with restartOwed := true, frame := .other, reply := [0] } }) ∧
  (∀ (s : State) (code : Byte), exec (.unknownCommand code) s =
    .next { s with con := { s.con with frame := .other, reply := [3] } }) ∧
  (∀ (s : State) (c : Instr), s.image = none →
    (c ∈ [.consolePosition, .consoleRelease, .consoleRestart] ∨
      (∃ x w, c = .consoleGo x w) ∨ (∃ d t, c = .consoleStop d t) ∨
      (∃ x y n m, c = .consoleResume x y n m) ∨ (∃ x, c = .consoleCamera x) ∨
      (∃ x w, c = .consoleTempo x w) ∨ ∃ a, c = .consoleAttend a) →
    exec c s = .next { s with con := { s.con with frame := .other, reply := [1] } }) ∧
  ∀ (s : State) (img : Image), s.image = some img →
    (∀ a, exec (.attendLineChange a) s = .next { s with con := { s.con with
      attendLine := a, attendPosted := a || s.con.attendFlag } }) ∧
    (∀ a : Byte, exec (.consoleAttend a) s = .next { s with con :=
      if 1 < a.toNat then { s.con with frame := .other, reply := [3] }
      else { s.con with
        attendFlag := decide (a.toNat = 1)
        attendPosted := s.con.attendLine || decide (a.toNat = 1)
        frame := .other, reply := [0] } })

/-- R47, R55, R59, R90, R114, R140, R157, R180, R186, R189, R192, R195: the station after a warm reset.
The character or break being driven is finished: where it is a break, no BREAK_SEEN before breakUntil, its own end,
empties the drive (SeesBreak). That it is finished from where it stands and the round timer starts at its end is log
entry 30. -/
def Obligations.WarmResetValues : Prop :=
  ∀ (s : State) (img : Image) (t : Nat), s.image = some img → s.con.restartOwed = true →
    Completes (.warmReset t) s (fun u =>
      (u.image = some img ∧ u.con.loader = s.con.loader ∧ u.con.overflow = false ∧
        u.con.notices =
          [{ kind := .restart, round := s.le.roundCount, cue := s.spu.cue, station := img.station,
             detail1 := 2, detail2 := 0 }] ∧
        u.con.attendFlag = false ∧ u.con.attendPosted = s.con.attendLine ∧ u.con.lamp = false ∧
        u.con.restartOwed = false ∧ u.con.frame = .closed ∧ u.con.buttons = s.con.buttons ∧
        u.con.safetyLine = s.con.safetyLine ∧ u.con.attendLine = s.con.attendLine) ∧
      (u.le.state = .listen ∧ u.le.localRunning = false ∧ u.le.hunting = true ∧
        u.le.queue = [] ∧ u.le.send = none ∧ u.le.waitingHalt = none ∧
        u.le.roundCount = s.le.roundCount ∧ u.le.lastMap = 0 ∧ u.le.thisMap = 0 ∧
        u.le.blind = false ∧ u.le.owners = [] ∧ u.le.beatSource = none ∧ u.le.cleanRun = 0 ∧
        u.le.silenceCount = 0 ∧ u.le.readBackRun = 0 ∧ u.le.isolationCount = 0 ∧
        u.le.listenTimer = none ∧ u.le.round = none ∧ u.le.localRound = none ∧
        u.le.breakPending = false ∧ u.le.breakDriving = none ∧ u.le.decoder = .idle ∧
        u.le.received = none ∧
        u.le.clashCount = s.le.clashCount ∧ u.le.lineFaultCount = s.le.lineFaultCount ∧
        u.le.shortCount = s.le.shortCount ∧ u.le.badCount = s.le.badCount ∧
        u.le.mismatch = s.le.mismatch ∧
        (s.le.driving img (max s.now t) = none → u.le.drive = [] ∧
          u.le.roundTimer = some (max s.now t + img.roundTime)) ∧
        ∀ w, s.le.driving img (max s.now t) = some w → u.le.drive = [w] ∧
          u.le.driveFrom ≤ max s.now t ∧
          u.le.breakUntil = u.le.driveFrom + img.charTime ∧ (0 < img.charTime →
            max s.now t < u.le.driveFrom + img.charTime ∧
            u.le.driving img (max s.now t) = some w) ∧
          u.le.roundTimer = some (u.le.driveFrom + img.charTime + img.roundTime)) ∧
      u.spu = { s.spu with
        suspect := true, launchPending := false, lastTransition := none, proposal := none
        observed := none, armed := none, awaitingCall := false, callWindow := none
        dissent := false, stopPosted := s.spu.ownStop, resumeWindow := none
        awaitingResume := false, refWait := 0, restartRecall := true
        restart := if s.spu.showState = .countin then s.spu.restart else none } ∧
      (u.psq.scan = none ∧ u.psq.queued = none ∧ u.psq.target = none ∧ u.psq.notReady = false ∧
        (u.psq.hold = true ↔ s.spu.showState = .stopped ∨ s.spu.showState = .standby) ∧
        ∀ p, u.psq.ports.get p =
          { state := .idle, list := [], buffer := .empty, slots := (s.psq.ports.get p).slots
            sendEnd := none, settle := none }) ∧
      (u.cke.bar = s.cke.bar ∧ u.cke.beat = s.cke.beat ∧ u.cke.vamp = s.cke.vamp ∧
        u.cke.tempo = s.cke.tempo ∧ u.cke.override = s.cke.override ∧ u.cke.ramp = none ∧
        u.cke.compare = s.cke.compare ∧ u.cke.launch = false ∧ u.cke.armedTarget = none ∧
        u.cke.countIn = (if s.spu.showState = .countin then s.cke.countIn else none) ∧
        u.cke.beatTimer = none ∧ u.cke.shadow = .stopped ∧ u.cke.beatPosted = false ∧
        u.cke.downbeatPosted = false ∧ u.cke.subOwed = 0 ∧ u.cke.subNext = none ∧
        u.cke.tap = none ∧
        u.cke.lanes.l0 = { s.cke.lanes.l0 with level := false } ∧
        u.cke.lanes.l1 = { s.cke.lanes.l1 with level := false } ∧
        u.cke.lanes.l2 = { s.cke.lanes.l2 with level := false } ∧
        u.cke.lanes.l3 = { s.cke.lanes.l3 with level := false }) ∧
      (u.vsl.live = none ∧ u.vsl.pendingSwitch = none ∧ u.vsl.override = s.vsl.override ∧
        u.vsl.table = s.vsl.table ∧ u.vsl.pitCamfail = false ∧ u.vsl.composer = .idle ∧
        u.vsl.camfail = img.roles.video ∧
        (img.roles.video = false → u.vsl.desired = none ∧ u.vsl.slate = none) ∧
        (img.roles.video = true →
          u.vsl.slate = some (max s.now t + img.frameInterval * 100000) ∧ u.vsl.desired =
            (match s.vsl.override with
              | some y => some y
              | none => if s.spu.showState = .preshow then some .front
                else some (s.vsl.table.getD s.spu.cue .front))) ∧
        ∀ i, u.vsl.monitors.get i = Monitor.cold) ∧
      u.pending = s.pending)

/-! ## The talk queue (R57) -/

/-- R57: the table of submissions: what each does to the queue, by kind and by what it holds. -/
def Obligations.TalkQueueTakesSubmissions : Prop :=
  (∀ (l : Le) (f : HaltFields),
    l.submitHalt f =
      if l.holds .halt = true ∨ l.waitingHalt ≠ none then l
      else if l.entryInFlight = true then { l with waitingHalt := some f }
      else { l with queue := Entry.fresh (.halt f) :: l.queue }) ∧
  (∀ (l : Le) (m : Message), l.holds m.kind = false →
    l.submitReplacing m = { l with queue := l.queue ++ [Entry.fresh m] }) ∧
  (∀ (l : Le) (m : Message) (before after : List Entry) (e : Entry),
    l.queue = before ++ e :: after → e.message.kind = m.kind →
    (∀ x ∈ before ++ after, x.message.kind ≠ m.kind) →
    l.submitReplacing m = { l with queue := before ++
      { message := m, inFlight := e.inFlight, renewed := e.renewed || e.inFlight } :: after }) ∧
  (∀ (l : Le) (f : ResumeFields), l.holds .resume = false →
    l.refusesResume f = false ∧
      l.submitResume f = { l with queue := l.queue ++ [Entry.fresh (.resume f)] }) ∧
  ∀ (l : Le) (f g : ResumeFields) (e : Entry), l.holds .resume = true → e ∈ l.queue →
    e.message = .resume g → (∀ x ∈ l.queue, x.message.kind = .resume → x = e) →
    (l.refusesResume f = true ↔ f ≠ g) ∧ l.submitResume f = l

/-! ## What every step keeps -/

/-- The properties below hold after a cold reset. -/
def Obligations.ResetKeepsInvariants : Prop :=
  State.reset.noticesFit ∧ State.reset.stopClaim ∧ State.reset.queueOrdered ∧
    State.reset.readinessTold ∧ State.reset.camfailTold ∧ State.reset.attendTold ∧
    State.reset.imageHeld ∧ State.reset.countsFit

/-- R193: the notice queue holds at most 32 records after every step. -/
def Obligations.StepKeepsNoticesFit : Prop :=
  ∀ s t : State, s.noticesFit → step s = .next t → t.noticesFit

/-- R158, R162, R163, R170: STOP is posted exactly while own-stop is set, and a station with own-stop set is
in STOPPED, after every step. -/
def Obligations.StepKeepsStopClaim : Prop :=
  ∀ s t : State, s.stopClaim → step s = .next t → t.stopClaim

/-- R56 to R58: the talk queue holds at most one message of each kind, never a TALLY, and a HALT only at its
front, after every step. -/
def Obligations.StepKeepsQueueOrdered : Prop :=
  ∀ s t : State, s.queueOrdered → step s = .next t → t.queueOrdered

/-- R100, R150, R196, R12, R55: the contributions NOTREADY, CAMFAIL and ATTEND follow their conditions, an
image is held exactly in ACCEPTED, and the reported counts fit a byte, after every step. -/
def Obligations.StepKeepsRecords : Prop :=
  (∀ s t : State, s.readinessTold → step s = .next t → t.readinessTold) ∧
  (∀ s t : State, s.camfailTold → step s = .next t → t.camfailTold) ∧
  (∀ s t : State, s.attendTold → step s = .next t → t.attendTold) ∧
  (∀ s t : State, s.imageHeld → step s = .next t → t.imageHeld) ∧
  ∀ s t : State, s.countsFit → step s = .next t → t.countsFit
end

