-- ==== Sys2Proof/Laws/State.lean ====
section
/-! SUPPORT. Laws/State.lean: one lemma per field per update of State, true by rfl. -/

namespace Sys2Proof.Machine

variable (s : State)

@[simp] theorem State.onCon_pending (f : Con → Con) : (s.onCon f).pending = s.pending := rfl
@[simp] theorem State.onCon_now (f : Con → Con) : (s.onCon f).now = s.now := rfl
@[simp] theorem State.onCon_draws (f : Con → Con) : (s.onCon f).draws = s.draws := rfl
@[simp] theorem State.onCon_readings (f : Con → Con) : (s.onCon f).readings = s.readings := rfl
@[simp] theorem State.onCon_image (f : Con → Con) : (s.onCon f).image = s.image := rfl
@[simp] theorem State.onCon_con (f : Con → Con) : (s.onCon f).con = f s.con := rfl
@[simp] theorem State.onCon_le (f : Con → Con) : (s.onCon f).le = s.le := rfl
@[simp] theorem State.onCon_spu (f : Con → Con) : (s.onCon f).spu = s.spu := rfl
@[simp] theorem State.onCon_psq (f : Con → Con) : (s.onCon f).psq = s.psq := rfl
@[simp] theorem State.onCon_cke (f : Con → Con) : (s.onCon f).cke = s.cke := rfl
@[simp] theorem State.onCon_vsl (f : Con → Con) : (s.onCon f).vsl = s.vsl := rfl

@[simp] theorem State.onLe_pending (f : Le → Le) : (s.onLe f).pending = s.pending := rfl
@[simp] theorem State.onLe_now (f : Le → Le) : (s.onLe f).now = s.now := rfl
@[simp] theorem State.onLe_draws (f : Le → Le) : (s.onLe f).draws = s.draws := rfl
@[simp] theorem State.onLe_readings (f : Le → Le) : (s.onLe f).readings = s.readings := rfl
@[simp] theorem State.onLe_image (f : Le → Le) : (s.onLe f).image = s.image := rfl
@[simp] theorem State.onLe_con (f : Le → Le) : (s.onLe f).con = s.con := rfl
@[simp] theorem State.onLe_le (f : Le → Le) : (s.onLe f).le = f s.le := rfl
@[simp] theorem State.onLe_spu (f : Le → Le) : (s.onLe f).spu = s.spu := rfl
@[simp] theorem State.onLe_psq (f : Le → Le) : (s.onLe f).psq = s.psq := rfl
@[simp] theorem State.onLe_cke (f : Le → Le) : (s.onLe f).cke = s.cke := rfl
@[simp] theorem State.onLe_vsl (f : Le → Le) : (s.onLe f).vsl = s.vsl := rfl

@[simp] theorem State.onSpu_pending (f : Spu → Spu) : (s.onSpu f).pending = s.pending := rfl
@[simp] theorem State.onSpu_now (f : Spu → Spu) : (s.onSpu f).now = s.now := rfl
@[simp] theorem State.onSpu_draws (f : Spu → Spu) : (s.onSpu f).draws = s.draws := rfl
@[simp] theorem State.onSpu_readings (f : Spu → Spu) : (s.onSpu f).readings = s.readings := rfl
@[simp] theorem State.onSpu_image (f : Spu → Spu) : (s.onSpu f).image = s.image := rfl
@[simp] theorem State.onSpu_con (f : Spu → Spu) : (s.onSpu f).con = s.con := rfl
@[simp] theorem State.onSpu_le (f : Spu → Spu) : (s.onSpu f).le = s.le := rfl
@[simp] theorem State.onSpu_spu (f : Spu → Spu) : (s.onSpu f).spu = f s.spu := rfl
@[simp] theorem State.onSpu_psq (f : Spu → Spu) : (s.onSpu f).psq = s.psq := rfl
@[simp] theorem State.onSpu_cke (f : Spu → Spu) : (s.onSpu f).cke = s.cke := rfl
@[simp] theorem State.onSpu_vsl (f : Spu → Spu) : (s.onSpu f).vsl = s.vsl := rfl

@[simp] theorem State.onPsq_pending (f : Psq → Psq) : (s.onPsq f).pending = s.pending := rfl
@[simp] theorem State.onPsq_now (f : Psq → Psq) : (s.onPsq f).now = s.now := rfl
@[simp] theorem State.onPsq_draws (f : Psq → Psq) : (s.onPsq f).draws = s.draws := rfl
@[simp] theorem State.onPsq_readings (f : Psq → Psq) : (s.onPsq f).readings = s.readings := rfl
@[simp] theorem State.onPsq_image (f : Psq → Psq) : (s.onPsq f).image = s.image := rfl
@[simp] theorem State.onPsq_con (f : Psq → Psq) : (s.onPsq f).con = s.con := rfl
@[simp] theorem State.onPsq_le (f : Psq → Psq) : (s.onPsq f).le = s.le := rfl
@[simp] theorem State.onPsq_spu (f : Psq → Psq) : (s.onPsq f).spu = s.spu := rfl
@[simp] theorem State.onPsq_psq (f : Psq → Psq) : (s.onPsq f).psq = f s.psq := rfl
@[simp] theorem State.onPsq_cke (f : Psq → Psq) : (s.onPsq f).cke = s.cke := rfl
@[simp] theorem State.onPsq_vsl (f : Psq → Psq) : (s.onPsq f).vsl = s.vsl := rfl

@[simp] theorem State.onCke_pending (f : Cke → Cke) : (s.onCke f).pending = s.pending := rfl
@[simp] theorem State.onCke_now (f : Cke → Cke) : (s.onCke f).now = s.now := rfl
@[simp] theorem State.onCke_draws (f : Cke → Cke) : (s.onCke f).draws = s.draws := rfl
@[simp] theorem State.onCke_readings (f : Cke → Cke) : (s.onCke f).readings = s.readings := rfl
@[simp] theorem State.onCke_image (f : Cke → Cke) : (s.onCke f).image = s.image := rfl
@[simp] theorem State.onCke_con (f : Cke → Cke) : (s.onCke f).con = s.con := rfl
@[simp] theorem State.onCke_le (f : Cke → Cke) : (s.onCke f).le = s.le := rfl
@[simp] theorem State.onCke_spu (f : Cke → Cke) : (s.onCke f).spu = s.spu := rfl
@[simp] theorem State.onCke_psq (f : Cke → Cke) : (s.onCke f).psq = s.psq := rfl
@[simp] theorem State.onCke_cke (f : Cke → Cke) : (s.onCke f).cke = f s.cke := rfl
@[simp] theorem State.onCke_vsl (f : Cke → Cke) : (s.onCke f).vsl = s.vsl := rfl

@[simp] theorem State.onVsl_pending (f : Vsl → Vsl) : (s.onVsl f).pending = s.pending := rfl
@[simp] theorem State.onVsl_now (f : Vsl → Vsl) : (s.onVsl f).now = s.now := rfl
@[simp] theorem State.onVsl_draws (f : Vsl → Vsl) : (s.onVsl f).draws = s.draws := rfl
@[simp] theorem State.onVsl_readings (f : Vsl → Vsl) : (s.onVsl f).readings = s.readings := rfl
@[simp] theorem State.onVsl_image (f : Vsl → Vsl) : (s.onVsl f).image = s.image := rfl
@[simp] theorem State.onVsl_con (f : Vsl → Vsl) : (s.onVsl f).con = s.con := rfl
@[simp] theorem State.onVsl_le (f : Vsl → Vsl) : (s.onVsl f).le = s.le := rfl
@[simp] theorem State.onVsl_spu (f : Vsl → Vsl) : (s.onVsl f).spu = s.spu := rfl
@[simp] theorem State.onVsl_psq (f : Vsl → Vsl) : (s.onVsl f).psq = s.psq := rfl
@[simp] theorem State.onVsl_cke (f : Vsl → Vsl) : (s.onVsl f).cke = s.cke := rfl
@[simp] theorem State.onVsl_vsl (f : Vsl → Vsl) : (s.onVsl f).vsl = f s.vsl := rfl

@[simp] theorem State.reach_pending (t : Nat) : (s.reach t).pending = s.pending := rfl
@[simp] theorem State.reach_now (t : Nat) : (s.reach t).now = max s.now t := rfl
@[simp] theorem State.reach_draws (t : Nat) : (s.reach t).draws = s.draws := rfl
@[simp] theorem State.reach_readings (t : Nat) : (s.reach t).readings = s.readings := rfl
@[simp] theorem State.reach_image (t : Nat) : (s.reach t).image = s.image := rfl
@[simp] theorem State.reach_con (t : Nat) : (s.reach t).con = s.con := rfl
@[simp] theorem State.reach_le (t : Nat) : (s.reach t).le = s.le := rfl
@[simp] theorem State.reach_spu (t : Nat) : (s.reach t).spu = s.spu := rfl
@[simp] theorem State.reach_psq (t : Nat) : (s.reach t).psq = s.psq := rfl
@[simp] theorem State.reach_cke (t : Nat) : (s.reach t).cke = s.cke := rfl
@[simp] theorem State.reach_vsl (t : Nat) : (s.reach t).vsl = s.vsl := rfl

end Sys2Proof.Machine
end

