-- ==== Sys2Proof/Laws/Post.lean ====
section
/-! SUPPORT. Laws/Post.lean: what posting a notice and the flush of a step's postings can do (R193). -/

namespace Sys2Proof.Machine

/-! ## Appending -/

theorem Con.append_length (c : Con) (n : Notice) (h : c.notices.length ≤ Config.noticeRoom) :
    (c.append n).notices.length ≤ Config.noticeRoom := by
  unfold Con.append
  split
  · rename_i g
    simp only [List.length_append, List.length_singleton]
    omega
  · exact h

theorem Con.append_room (c : Con) (n : Notice) (h : c.notices.length < Config.noticeRoom) :
    c.append n = { c with notices := c.notices ++ [n] } := by
  simp [Con.append, h]

@[simp] theorem Con.append_together (c : Con) (n : Notice) : (c.append n).together = c.together := by
  unfold Con.append; split <;> rfl

@[simp] theorem Con.append_loader (c : Con) (n : Notice) : (c.append n).loader = c.loader := by
  unfold Con.append; split <;> rfl

@[simp] theorem Con.append_safetyLine (c : Con) (n : Notice) :
    (c.append n).safetyLine = c.safetyLine := by
  unfold Con.append; split <;> rfl

@[simp] theorem Con.append_attend (c : Con) (n : Notice) :
    (c.append n).attendLine = c.attendLine ∧ (c.append n).attendFlag = c.attendFlag ∧
      (c.append n).attendPosted = c.attendPosted := by
  unfold Con.append; split <;> exact ⟨rfl, rfl, rfl⟩

/-! ## Posting -/

section
variable (o : Origin) (n : Notice) (s : State)

@[simp] theorem State.postNotice_frame :
    (s.postNotice o n).pending = s.pending ∧ (s.postNotice o n).now = s.now ∧
      (s.postNotice o n).image = s.image ∧ (s.postNotice o n).le = s.le ∧
      (s.postNotice o n).spu = s.spu ∧ (s.postNotice o n).psq = s.psq ∧
      (s.postNotice o n).cke = s.cke ∧ (s.postNotice o n).vsl = s.vsl ∧
      (s.postNotice o n).readings = s.readings :=
  ⟨rfl, rfl, rfl, rfl, rfl, rfl, rfl, rfl, rfl⟩

/-- A posting changes nothing of CON but the postings of the step. -/
theorem State.postNotice_con :
    ∃ xs, (s.postNotice o n).con = { s.con with together := xs } := ⟨_, rfl⟩

@[simp] theorem State.postNotice_notices : (s.postNotice o n).con.notices = s.con.notices := by
  obtain ⟨xs, h⟩ := s.postNotice_con o n
  simp [h]

@[simp] theorem State.postNotice_conFrame :
    (s.postNotice o n).con.loader = s.con.loader ∧
      (s.postNotice o n).con.safetyLine = s.con.safetyLine ∧
      (s.postNotice o n).con.attendLine = s.con.attendLine ∧
      (s.postNotice o n).con.attendFlag = s.con.attendFlag ∧
      (s.postNotice o n).con.attendPosted = s.con.attendPosted := by
  obtain ⟨xs, h⟩ := s.postNotice_con o n
  simp [h]

theorem State.postNotice_first (h : s.con.together = []) :
    s.postNotice o n = { s with con := { s.con with together := [(o, n)] } } := by
  simp [State.postNotice, h, foreignTail]

end

section
variable (o : Origin) (kind : NoticeKind) (station d1 d2 : Nat) (s : State)

@[simp] theorem State.post_frame :
    (s.post o kind station d1 d2).pending = s.pending ∧
      (s.post o kind station d1 d2).now = s.now ∧
      (s.post o kind station d1 d2).image = s.image ∧ (s.post o kind station d1 d2).le = s.le ∧
      (s.post o kind station d1 d2).spu = s.spu ∧ (s.post o kind station d1 d2).psq = s.psq ∧
      (s.post o kind station d1 d2).cke = s.cke ∧ (s.post o kind station d1 d2).vsl = s.vsl ∧
      (s.post o kind station d1 d2).readings = s.readings :=
  State.postNotice_frame _ _ _

@[simp] theorem State.post_notices :
    (s.post o kind station d1 d2).con.notices = s.con.notices :=
  State.postNotice_notices _ _ _

@[simp] theorem State.post_conFrame :
    (s.post o kind station d1 d2).con.loader = s.con.loader ∧
      (s.post o kind station d1 d2).con.safetyLine = s.con.safetyLine ∧
      (s.post o kind station d1 d2).con.attendLine = s.con.attendLine ∧
      (s.post o kind station d1 d2).con.attendFlag = s.con.attendFlag ∧
      (s.post o kind station d1 d2).con.attendPosted = s.con.attendPosted :=
  State.postNotice_conFrame _ _ _

end

/-! ## The flush -/

@[simp] theorem State.flush_frame (s : State) :
    s.flush.pending = s.pending ∧ s.flush.now = s.now ∧ s.flush.draws = s.draws ∧
      s.flush.image = s.image ∧ s.flush.le = s.le ∧ s.flush.spu = s.spu ∧
      s.flush.psq = s.psq ∧ s.flush.cke = s.cke ∧ s.flush.vsl = s.vsl ∧
      s.flush.readings = s.readings := by
  simp [State.flush]

@[simp] theorem State.flush_together (s : State) : s.flush.con.together = [] := rfl

theorem Con.appendAll_length (xs : List (Origin × Notice)) (c : Con)
    (h : c.notices.length ≤ Config.noticeRoom) :
    (xs.foldl (fun c x => c.append x.2) c).notices.length ≤ Config.noticeRoom := by
  induction xs generalizing c with
  | nil => exact h
  | cons x xs ih => exact ih _ (c.append_length x.2 h)

theorem State.flush_length (s : State) (h : s.con.notices.length ≤ Config.noticeRoom) :
    s.flush.con.notices.length ≤ Config.noticeRoom :=
  Con.appendAll_length _ _ h

@[simp] theorem State.flush_conFrame (s : State) :
    s.flush.con.loader = s.con.loader ∧ s.flush.con.received = s.con.received ∧
      s.flush.con.reply = s.con.reply ∧ s.flush.con.restartOwed = s.con.restartOwed ∧
      s.flush.con.safetyLine = s.con.safetyLine ∧ s.flush.con.attendLine = s.con.attendLine ∧
      s.flush.con.attendFlag = s.con.attendFlag ∧ s.flush.con.attendPosted = s.con.attendPosted ∧
      s.flush.con.lamp = s.con.lamp := ⟨rfl, rfl, rfl, rfl, rfl, rfl, rfl, rfl, rfl⟩

/-- With nothing posted the flush changes nothing. -/
theorem State.flush_empty (s : State) (h : s.con.together = []) : s.flush = s := by
  obtain ⟨p, n, d, g, i, c, l, u, q, k, v⟩ := s
  cases c
  simp only at h
  subst h
  rfl

/-- One posting waiting reaches the queue. -/
theorem Con.takePostings_one (c : Con) (x : Origin × Notice) (h : c.together = []) :
    ({ c with together := [x] } : Con).takePostings = c.append x.2 := by
  cases c
  simp only at h
  subst h
  simp only [Con.takePostings, Con.append, List.foldl_cons, List.foldl_nil]
  split <;> rfl

/-- One posting of a step reaches the queue. -/
theorem State.post_flush (o : Origin) (kind : NoticeKind) (station d1 d2 : Nat) (s : State)
    (h : s.con.together = []) :
    (s.post o kind station d1 d2).flush =
      { s with con := s.conAfter kind station d1 d2 } := by
  rw [State.conAfter, State.post, State.postNotice_first _ _ _ h]
  simp only [State.flush, State.onCon, Con.takePostings_one _ _ h]

/-! ## Where a posting ends (R193) -/

theorem Con.append_keeps {c : Con} {n : Notice} (m : Notice) (h : n ∈ c.notices) :
    n ∈ (c.append m).notices := by
  unfold Con.append
  split
  · exact List.mem_append_left _ h
  · exact h

theorem Con.append_grows (c : Con) (m : Notice) :
    c.notices.length ≤ (c.append m).notices.length := by
  unfold Con.append
  split
  · simp
  · exact Nat.le_refl _

theorem Con.append_tells (c : Con) (n : Notice) :
    n ∈ (c.append n).notices ∨ 32 ≤ (c.append n).notices.length := by
  unfold Con.append
  split
  · exact .inl (List.mem_append_right _ (List.mem_singleton.2 rfl))
  · rename_i g
    exact .inr (Nat.le_of_not_lt g)

/-- Records appended one after the other: each is in the queue, unless it has no room left. -/
theorem Con.appendAll_tells (xs : List (Origin × Notice)) (c : Con) (n : Notice)
    (h : n ∈ xs.map Prod.snd ∨ n ∈ c.notices ∨ 32 ≤ c.notices.length) :
    n ∈ (xs.foldl (fun c x => c.append x.2) c).notices ∨
      32 ≤ (xs.foldl (fun c x => c.append x.2) c).notices.length := by
  induction xs generalizing c with
  | nil =>
    rcases h with h | h
    · cases h
    · exact h
  | cons x xs ih =>
    refine ih (c.append x.2) ?_
    rcases h with h | h | h
    · rcases List.mem_cons.1 h with e | h
      · rw [e]
        exact .inr (c.append_tells x.2)
      · exact .inl h
    · exact .inr (.inl (Con.append_keeps _ h))
    · exact .inr (.inr (Nat.le_trans h (c.append_grows x.2)))

/-- A record posted in the step is in the queue after it, unless the queue has no room left. -/
theorem State.flush_tells (s : State) (n : Notice) (h : n ∈ s.con.together.map Prod.snd) :
    n ∈ s.flush.con.notices ∨ 32 ≤ s.flush.con.notices.length :=
  Con.appendAll_tells _ _ _ (.inl h)

/-- The postings of a step with one more: that one, and those before it. -/
theorem State.postNotice_mem (o : Origin) (n m : Notice) (s : State) :
    m ∈ (s.postNotice o n).con.together.map Prod.snd ↔
      m = n ∨ m ∈ s.con.together.map Prod.snd := by
  have e : ∀ (k : Nat) (xs : List (Origin × Notice)),
      (m ∈ (xs.take k ++ [(o, n)] ++ xs.drop k).map Prod.snd ↔ m = n ∨ m ∈ xs.map Prod.snd) := by
    intro k xs
    have h : m ∈ xs.map Prod.snd ↔ m ∈ (xs.take k).map Prod.snd ∨ m ∈ (xs.drop k).map Prod.snd := by
      rw [← List.mem_append, ← List.map_append, List.take_append_drop]
    rw [h]
    simp only [List.map_append, List.mem_append, List.map_cons, List.map_nil, List.mem_singleton]
    rw [or_comm (b := m = n), or_assoc]
  exact e _ _

end Sys2Proof.Machine
end

