-- ==== Sys2Proof/Laws/Blocks.lean ====
section
/-! SUPPORT. Laws/Blocks.lean: what the shared operations of the blocks leave unchanged and what they set: PSQ's
hand-offs, VSL's desired source, the click timers, the end of an event, the talk queue, a posted STOP. -/

namespace Sys2Proof

/-! ## One value per port and input -/

@[simp] theorem Ports.get_set_same {α : Type} (x : Ports α) (p : Port) (v : α) :
    (x.set p v).get p = v := by cases p <;> rfl

theorem Ports.get_set_other {α : Type} (x : Ports α) (p q : Port) (v : α) (h : q ≠ p) :
    (x.set p v).get q = x.get q := by cases p <;> cases q <;> first | rfl | exact absurd rfl h

@[simp] theorem Ports.set_get {α : Type} (x : Ports α) (p : Port) : x.set p (x.get p) = x := by
  cases p <;> rfl

@[simp] theorem Ports.set_set {α : Type} (x : Ports α) (p : Port) (v w : α) :
    (x.set p v).set p w = x.set p w := by cases p <;> rfl

@[simp] theorem Inputs.get_set_same {α : Type} (x : Inputs α) (i : Source) (v : α) :
    (x.set i v).get i = v := by cases i <;> rfl

theorem Inputs.get_set_other {α : Type} (x : Inputs α) (i j : Source) (v : α) (h : j ≠ i) :
    (x.set i v).get j = x.get j := by cases i <;> cases j <;> first | rfl | exact absurd rfl h

namespace Machine

/-! ## Presses (R195) -/

/-- A line just asserted reads asserted, and every other line as before. -/
@[simp] theorem ButtonLines.get_assert (x : ButtonLines) (b c : Button) :
    (x.assert b).get c = (x.get c || decide (c = b)) := by
  cases b <;> cases c <;> simp [ButtonLines.assert, ButtonLines.get]

/-- A press on a line whose level was deasserted, or has been since the press before. -/
theorem withPress_taken {s : State} {img : Image} (b : Button) (released : Bool)
    (f : Image → State → State) (h : s.image = some img)
    (hb : s.con.buttons.get b = false ∨ released = true) :
    withPress b released s f =
      .next (f img { s with con := { s.con with buttons := s.con.buttons.assert b } }) := by
  rcases hb with hb | hb <;> simp [withPress, withImage, hb, h, State.onCon]

/-- R195: holding a line gives no press. -/
theorem withPress_held {s : State} (b : Button) (f : Image → State → State)
    (hb : s.con.buttons.get b = true) : withPress b false s f = .next s := by
  simp [withPress, hb]

/-- R17: a press without a held image is discarded. -/
theorem withPress_none {s : State} (b : Button) (released : Bool) (f : Image → State → State)
    (h : s.image = none) (hb : s.con.buttons.get b = false ∨ released = true) :
    withPress b released s f =
      .next { s with con := { s.con with buttons := s.con.buttons.assert b } } := by
  rcases hb with hb | hb <;> simp [withPress, withImage, hb, h, State.onCon]

/-! ## A command with an image held -/

theorem withImage_some {s : State} {img : Image} (f : Image → State) (h : s.image = some img) :
    withImage s f = .next (f img) := by simp [withImage, h]

theorem withImage_none {s : State} (f : Image → State) (h : s.image = none) :
    withImage s f = .next s := by simp [withImage, h]

theorem withShow_some {s : State} {img : Image} (f : Image → State) (h : s.image = some img) :
    withShow s f = .next (f img) := by simp [withShow, h]

theorem withShow_none {s : State} (f : Image → State) (h : s.image = none) :
    withShow s f = .next (s.reply .refused) := by simp [withShow, h]

/-! ## PSQ -/

@[simp] theorem Psq.judge_frame (q : Psq) :
    q.judge.ports = q.ports ∧ q.judge.scan = q.scan ∧ q.judge.queued = q.queued ∧
      q.judge.target = q.target ∧ q.judge.hold = q.hold := ⟨rfl, rfl, rfl, rfl, rfl⟩

/-- R100: after any judged operation NOTREADY follows its condition. -/
theorem Psq.judge_told (q : Psq) : q.judge.notReady = q.judge.unready := rfl

@[simp] theorem Psq.withdraw_frame (q : Psq) :
    q.withdraw.ports = q.ports ∧ q.withdraw.scan = q.scan ∧ q.withdraw.queued = q.queued ∧
      q.withdraw.target = none ∧ q.withdraw.hold = q.hold := ⟨rfl, rfl, rfl, rfl, rfl⟩

@[simp] theorem Psq.onPort_frame (q : Psq) (p : Port) (f : PortRec → PortRec) :
    (q.onPort p f).scan = q.scan ∧ (q.onPort p f).queued = q.queued ∧
      (q.onPort p f).target = q.target ∧ (q.onPort p f).hold = q.hold ∧
      (q.onPort p f).notReady = q.notReady := ⟨rfl, rfl, rfl, rfl, rfl⟩

@[simp] theorem Psq.setBuffer_frame (q : Psq) (p : Port) (b : Buffer) :
    (q.setBuffer p b).scan = q.scan ∧ (q.setBuffer p b).queued = q.queued ∧
      (q.setBuffer p b).target = q.target ∧ (q.setBuffer p b).hold = q.hold := ⟨rfl, rfl, rfl, rfl⟩

@[simp] theorem Psq.emptyBuffer_frame (q : Psq) (p : Port) :
    (q.emptyBuffer p).target = q.target ∧ (q.emptyBuffer p).hold = q.hold := ⟨rfl, rfl⟩

@[simp] theorem Psq.dropServed_frame (q : Psq) (x : Ports Bool) :
    (q.dropServed x).target = q.target ∧ (q.dropServed x).hold = q.hold ∧
      (q.dropServed x).scan = q.scan ∧ (q.dropServed x).queued = q.queued := by
  unfold Psq.dropServed
  cases x.a <;> cases x.b <;> exact ⟨rfl, rfl, rfl, rfl⟩

@[simp] theorem Psq.joinRecall_frame (q : Psq) (p : Port) (t : Nat) (u : Purpose) (due : Bool) :
    (q.joinRecall p t u due).target = q.target ∧ (q.joinRecall p t u due).hold = q.hold := by
  unfold Psq.joinRecall
  repeat' split
  all_goals simp

@[simp] theorem Psq.handEmpty_frame (q : Psq) (p : Port) (r : HandRow) :
    (q.handEmpty p r).target = q.target ∧ (q.handEmpty p r).hold = q.hold := by
  cases r <;> simp [Psq.handEmpty]

@[simp] theorem Psq.handBegin_frame (q : Psq) (p : Port) (t : PendingTarget) (r : HandRow) :
    (q.handBegin p t r).target = q.target ∧ (q.handBegin p t r).hold = q.hold := by
  cases r <;> simp [Psq.handBegin, Psq.beginDelta]

@[simp] theorem Psq.handTarget_frame (q : Psq) (t : PendingTarget) (cue : Nat) :
    (q.handTarget t cue).target = some t ∧ (q.handTarget t cue).hold = q.hold := by
  simp [Psq.handTarget]

@[simp] theorem Psq.prepare_frame (q : Psq) (img : Image) (cue : Nat) (p : Port) (n : Nat) :
    (q.prepare img cue p n).target = q.target ∧ (q.prepare img cue p n).hold = q.hold := by
  unfold Psq.prepare Psq.handPort Psq.beginDelta
  dsimp only
  repeat' split
  all_goals simp

@[simp] theorem Psq.fireInto_frame (q : Psq) (img : Image) (cue : Nat) (p : Port) (n : Nat)
    (k : BufferKind) (refs : List Nat) :
    (q.fireInto img cue p n k refs).target = q.target ∧
      (q.fireInto img cue p n k refs).hold = q.hold := by
  simp [Psq.fireInto]

@[simp] theorem Psq.endLoad_frame (q : Psq) (img : Image) (cue : Nat) (p : Port) (n : Nat)
    (k : BufferKind) (refs : List Nat) (due : Bool) :
    (q.endLoad img cue p n k refs due).target = q.target ∧
      (q.endLoad img cue p n k refs due).hold = q.hold := by
  unfold Psq.endLoad
  repeat' split
  all_goals simp

@[simp] theorem Psq.fireEmpty_frame (q : Psq) (p : Port) (r : FireRow) :
    (q.fireEmpty p r).target = q.target ∧ (q.fireEmpty p r).hold = q.hold := by
  cases r <;> simp [Psq.fireEmpty]

@[simp] theorem Psq.fireApply_frame (q : Psq) (img : Image) (cue : Nat) (p : Port) (t : Nat)
    (r : FireRow) :
    (q.fireApply img cue p t r).target = q.target ∧ (q.fireApply img cue p t r).hold = q.hold := by
  cases r <;> simp [Psq.fireApply]

@[simp] theorem Psq.endHold_frame (q : Psq) :
    q.endHold.target = q.target ∧ q.endHold.hold = false := by
  unfold Psq.endHold
  cases h : q.hold <;> simp [h]

/-- R105, R111: a fire request ends the hold and leaves the pending target. -/
@[simp] theorem Psq.fire_frame (q : Psq) (img : Image) (cue : Nat) (form : FireForm) (t : Nat) :
    (q.fire img cue form t).target = q.target ∧ (q.fire img cue form t).hold = false := by
  simp [Psq.fire]

/-- R104: a queued scan that starts changes the scan and the queue alone. -/
@[simp] theorem Psq.followScan_frame (q : Psq) :
    q.followScan.target = q.target ∧ q.followScan.ports = q.ports ∧ q.followScan.hold = q.hold ∧
      q.followScan.notReady = q.notReady := by
  unfold Psq.followScan
  repeat' split
  all_goals simp

/-- R104: with no scan queued nothing follows. -/
theorem Psq.followScan_none (q : Psq) (h : q.queued = none) : q.followScan = q := by
  simp [Psq.followScan, h]

/-- R104: with no scan running the queued one starts from its own target with nothing found. -/
theorem Psq.followScan_starts (q : Psq) (w : QueuedScan) (h : q.queued = some w)
    (g : q.scan = none) :
    q.followScan =
      { q with scan := some (Scan.start w.target w.purpose w.served), queued := none } := by
  simp [Psq.followScan, h, g]

/-- R96: the instants of the sends are all that an operation's sends add. -/
@[simp] theorem PortRec.beginSend_frame (img : Image) (p : Port) (now : Nat) (b r : PortRec) :
    (r.beginSend img p now b).state = r.state ∧ (r.beginSend img p now b).list = r.list ∧
      (r.beginSend img p now b).buffer = r.buffer ∧ (r.beginSend img p now b).slots = r.slots ∧
      (r.beginSend img p now b).settle = r.settle := by
  unfold PortRec.beginSend
  split <;> simp

/-- R96: a port that was SENDING, or is not now, begins no send. -/
theorem PortRec.beginSend_same (img : Image) (p : Port) (now : Nat) (b r : PortRec)
    (h : b.state = .sending ∨ r.state ≠ .sending) : r.beginSend img p now b = r := by
  unfold PortRec.beginSend
  split <;> simp_all

@[simp] theorem Psq.beginSends_frame (q b : Psq) (img : Image) (now : Nat) :
    (q.beginSends b img now).scan = q.scan ∧ (q.beginSends b img now).queued = q.queued ∧
      (q.beginSends b img now).target = q.target ∧ (q.beginSends b img now).hold = q.hold ∧
      (q.beginSends b img now).notReady = q.notReady := ⟨rfl, rfl, rfl, rfl, rfl⟩

theorem Psq.beginSends_get (q b : Psq) (img : Image) (now : Nat) (p : Port) :
    (q.beginSends b img now).ports.get p =
      (q.ports.get p).beginSend img p now (b.ports.get p) := by cases p <;> rfl

/-- R96: an operation that brings no port into SENDING begins no send. -/
theorem Psq.beginSends_same (q b : Psq) (img : Image) (now : Nat)
    (h : ∀ p, (b.ports.get p).state = .sending ∨ (q.ports.get p).state ≠ .sending) :
    q.beginSends b img now = q := by
  have ha := PortRec.beginSend_same img .a now b.ports.a q.ports.a (h .a)
  have hb := PortRec.beginSend_same img .b now b.ports.b q.ports.b (h .b)
  simp [Psq.beginSends, ha, hb]

/-- R100: readiness does not depend on the instants of the sends. -/
@[simp] theorem Psq.beginSends_unready (q b : Psq) (img : Image) (now : Nat) :
    (q.beginSends b img now).unready = q.unready := by
  have h : ∀ (p : Port) (x y : PortRec) (t : PendingTarget), (y.beginSend img p now x).ready t = y.ready t := by
    intro p x y t
    simp [PortRec.ready]
  unfold Psq.unready
  simp only [(Psq.beginSends_frame q b img now).2.2.1]
  cases q.target with
  | none => rfl
  | some t => simp [Psq.beginSends, h]

@[simp] theorem State.onPorts_frame (img : Image) (f : Psq → Psq) (s : State) :
    (s.onPorts img f).pending = s.pending ∧ (s.onPorts img f).now = s.now ∧
      (s.onPorts img f).draws = s.draws ∧ (s.onPorts img f).image = s.image ∧
      (s.onPorts img f).con = s.con ∧ (s.onPorts img f).le = s.le ∧
      (s.onPorts img f).spu = s.spu ∧ (s.onPorts img f).cke = s.cke ∧
      (s.onPorts img f).vsl = s.vsl ∧
      (s.onPorts img f).psq = (f s.psq).beginSends s.psq img s.now ∧
      (s.onPorts img f).readings = s.readings :=
  ⟨rfl, rfl, rfl, rfl, rfl, rfl, rfl, rfl, rfl, rfl, rfl⟩

/-- R110: a hold begins; the pending target stays. -/
@[simp] theorem Psq.beginHold_frame (q : Psq) :
    q.beginHold.target = q.target ∧ q.beginHold.hold = true := by
  unfold Psq.beginHold
  dsimp only
  repeat' split
  all_goals simp_all

/-- The slot images of two records agree. -/
def SameSlots (q r : Psq) : Prop := ∀ p, (r.ports.get p).slots = (q.ports.get p).slots

theorem SameSlots.refl (q : Psq) : SameSlots q q := fun _ => rfl

theorem SameSlots.trans {q r t : Psq} (h : SameSlots q r) (g : SameSlots r t) : SameSlots q t :=
  fun p => (g p).trans (h p)

/-- R95: only an action sent writes a slot: an operation that keeps a port's slots keeps them all. -/
theorem SameSlots.onPort (q : Psq) (p : Port) (f : PortRec → PortRec)
    (h : ∀ r, (f r).slots = r.slots) : SameSlots q (q.onPort p f) := by
  intro o
  cases p <;> cases o <;> simp [Psq.onPort, Ports.set, Ports.get, h]

theorem SameSlots.setBuffer (q : Psq) (p : Port) (b : Buffer) : SameSlots q (q.setBuffer p b) :=
  SameSlots.onPort _ _ _ (fun _ => rfl)

theorem SameSlots.emptyBuffer (q : Psq) (p : Port) : SameSlots q (q.emptyBuffer p) :=
  SameSlots.setBuffer q p .empty

theorem SameSlots.dropServed (q : Psq) (x : Ports Bool) : SameSlots q (q.dropServed x) := by
  unfold Psq.dropServed
  cases x.a <;> cases x.b
  · exact SameSlots.refl q
  · exact SameSlots.setBuffer _ _ _
  · exact SameSlots.setBuffer _ _ _
  · exact (SameSlots.setBuffer _ _ _).trans (SameSlots.setBuffer _ _ _)

theorem SameSlots.joinRecall (q : Psq) (p : Port) (t : Nat) (u : Purpose) (due : Bool) :
    SameSlots q (q.joinRecall p t u due) := by
  unfold Psq.joinRecall
  dsimp only
  repeat' split
  · exact SameSlots.setBuffer q p _
  · exact SameSlots.setBuffer q p _
  · exact (SameSlots.dropServed q _).trans (SameSlots.setBuffer _ p _)
  · exact SameSlots.setBuffer q p _
  · exact (SameSlots.dropServed q _).trans (SameSlots.setBuffer _ p _)
  · exact SameSlots.setBuffer q p _

theorem SameSlots.handEmpty (q : Psq) (p : Port) (r : HandRow) : SameSlots q (q.handEmpty p r) := by
  cases r
  · exact SameSlots.refl q
  · exact SameSlots.emptyBuffer q p
  · exact SameSlots.emptyBuffer q p

theorem SameSlots.handBegin (q : Psq) (p : Port) (t : PendingTarget) (r : HandRow) :
    SameSlots q (q.handBegin p t r) := by
  cases r
  · exact SameSlots.refl q
  · exact SameSlots.setBuffer q p _
  · exact SameSlots.joinRecall q p _ _ _

theorem SameSlots.handTarget (q : Psq) (t : PendingTarget) (cue : Nat) :
    SameSlots q (q.handTarget t cue) := by
  unfold Psq.handTarget
  exact (((SameSlots.handEmpty { q with target := some t } _ _).trans
    (SameSlots.handEmpty _ _ _)).trans (SameSlots.handBegin _ _ _ _)).trans
    (SameSlots.handBegin _ _ _ _)

theorem SameSlots.prepare (q : Psq) (img : Image) (cue : Nat) (p : Port) (n : Nat) :
    SameSlots q (q.prepare img cue p n) := by
  unfold Psq.prepare Psq.handPort Psq.beginDelta
  dsimp only
  repeat' split
  all_goals first
    | exact SameSlots.refl q
    | exact SameSlots.setBuffer q p _
    | exact (SameSlots.handEmpty q p _).trans (SameSlots.handBegin _ p _ _)

theorem SameSlots.fireInto (q : Psq) (img : Image) (cue : Nat) (p : Port) (n : Nat)
    (k : BufferKind) (refs : List Nat) : SameSlots q (q.fireInto img cue p n k refs) := by
  unfold Psq.fireInto
  dsimp only
  refine SameSlots.trans (SameSlots.onPort q p _ ?_) (SameSlots.prepare _ _ _ _ _)
  intro r; rfl

theorem SameSlots.endHold (q : Psq) : SameSlots q q.endHold := by
  have h : ∀ r : PortRec, r.endHold.slots = r.slots := by
    intro r; unfold PortRec.endHold; dsimp only; split <;> rfl
  unfold Psq.endHold
  split
  · intro p; cases p <;> simp [Ports.get, h]
  · exact SameSlots.refl q

theorem SameSlots.fireApply (q : Psq) (img : Image) (cue : Nat) (p : Port) (t : Nat)
    (r : FireRow) : SameSlots q (q.fireApply img cue p t r) := by
  cases r
  · exact SameSlots.refl q
  · exact SameSlots.fireInto _ _ _ _ _ _ _
  · exact SameSlots.setBuffer q p _
  · exact SameSlots.onPort _ _ _ (fun r => by split <;> rfl)
  · exact SameSlots.joinRecall q p _ _ _
  · exact SameSlots.joinRecall q p _ _ _

theorem SameSlots.fireEmpty (q : Psq) (p : Port) (r : FireRow) : SameSlots q (q.fireEmpty p r) := by
  cases r
  all_goals first
    | exact SameSlots.refl q
    | exact SameSlots.emptyBuffer q p

/-- R95, R105: a fire request writes no slot. -/
theorem SameSlots.fire (q : Psq) (img : Image) (cue : Nat) (form : FireForm) (t : Nat) :
    SameSlots q (q.fire img cue form t) := by
  unfold Psq.fire
  exact ((((SameSlots.endHold q).trans (SameSlots.fireEmpty _ _ _)).trans
    (SameSlots.fireEmpty _ _ _)).trans (SameSlots.fireApply _ _ _ _ _ _)).trans
    (SameSlots.fireApply _ _ _ _ _ _)

/-- R95, R96: a send that begins writes no slot. -/
theorem SameSlots.beginSends (q b : Psq) (img : Image) (now : Nat) :
    SameSlots q (q.beginSends b img now) := by
  intro p
  rw [Psq.beginSends_get]
  simp

/-- R95, R110: a hold writes no slot. -/
theorem SameSlots.beginHold (q : Psq) : SameSlots q q.beginHold := by
  unfold Psq.beginHold
  dsimp only
  repeat' split
  all_goals
    intro p
    try simp only [Psq.judge, (Psq.followScan_frame _).2.1]
    try first
      | exact SameSlots.dropServed q _ p
      | exact Eq.trans (SameSlots.dropServed _ _ p) (SameSlots.dropServed q _ p)

/-! ## The line drive and the levels over time (R19, R35, R47, R153) -/

/-- A line that LE has released is driven at no instant. -/
theorem Le.driving_released (img : Image) (l : Le) (now : Nat) (h : l.drive = []) :
    l.driving img now = none := by
  simp [Le.driving, h]

/-- A single character is driven from its first instant to the end of its character time. -/
theorem Le.driving_single (img : Image) (l : Le) (w : Samples) (now : Nat) (h : l.drive = [w])
    (h1 : l.driveFrom ≤ now) (h2 : now < l.driveFrom + img.charTime) :
    l.driving img now = some w := by
  have hd : (now - l.driveFrom) / img.charTime = 0 := Nat.div_eq_of_lt (by omega)
  simp [Le.driving, h, hd, Nat.not_lt.mpr h1]

/-- R35: with no break being driven none is driven at any instant. -/
theorem Le.breakNow_none (l : Le) (now : Nat) (h : l.breakDriving = none) :
    l.breakNow now = false := by
  simp [Le.breakNow, h]

/-- R35: a position that a send covers lies in a talk slot. -/
theorem Send.covers_late (x : Send) (p : Nat) (h : x.covers p = true) : 5 < p := by
  have hc : 6 + 12 * x.slot ≤ p ∧ p < 6 + 12 * x.slot + x.length := of_decide_eq_true h
  omega

/-- R35: a break away from the characters of the send leaves LE's record. -/
theorem Le.breakSend_miss (l : Le) (p : Nat) (h : ∀ x, l.send = some x → x.covers p = false) :
    l.breakSend p = l := by
  unfold Le.breakSend
  split
  · rename_i x hx
    simp [h x hx]
  · rfl

/-- R35: past position 5 no vote character stands. -/
theorem Le.inVoteField_late (l : Le) (p : Nat) (h : 5 < p) : l.inVoteField p = false := by
  unfold Le.inVoteField
  split
  · exact decide_eq_false (fun x => by omega)
  · rfl

/-- R35: a break past position 5 leaves the record of the round. -/
theorem Round.addBreak_late (r : Round) (p : Nat) (h : 5 < p) : r.addBreak p = r := by
  simp [Round.addBreak, Nat.not_le.mpr h]

/-- R47: the character under way began at or before the instant, and ends after it. -/
theorem Le.lastFrom_bounds (img : Image) (l : Le) (w : Samples) (now : Nat)
    (h : l.driving img now = some w) (hc : 0 < img.charTime) :
    l.lastFrom img now ≤ now ∧ now < l.lastFrom img now + img.charTime := by
  have hf : l.driveFrom ≤ now := by
    refine Nat.le_of_not_lt (fun hn => ?_)
    simp [Le.driving, hn] at h
  have hm := Nat.div_add_mod (now - l.driveFrom) img.charTime
  have hl := Nat.mod_lt (now - l.driveFrom) hc
  rw [Nat.mul_comm] at hm
  simp only [Le.lastFrom, h, Option.isSome_some, if_true]
  omega

/-- R153: while a record is sent, 1 to 16 bytes of it are left. -/
theorem Composer.bytesLeft_sending (record : List Byte) (e now : Nat) (h1 : now < e)
    (h2 : e ≤ now + Config.captionNs) :
    1 ≤ (Composer.sending record e).bytesLeft now ∧
      (Composer.sending record e).bytesLeft now ≤ 16 := by
  simp only [Composer.bytesLeft, Config.captionNs, Config.captionRate] at *
  omega

/-! ## VSL -/

@[simp] theorem Vsl.rechoose_frame (v : Vsl) (img : Image) :
    (v.rechoose img).monitors = v.monitors ∧ (v.rechoose img).table = v.table ∧
      (v.rechoose img).override = v.override ∧ (v.rechoose img).desired = v.desired ∧
      (v.rechoose img).live = v.live ∧ (v.rechoose img).camfail = v.camfail ∧
      (v.rechoose img).pitCamfail = v.pitCamfail ∧ (v.rechoose img).composer = v.composer ∧
      (v.rechoose img).slate = v.slate := ⟨rfl, rfl, rfl, rfl, rfl, rfl, rfl, rfl, rfl⟩

@[simp] theorem Vsl.judgeCamfail_frame (v : Vsl) (img : Image) :
    (v.judgeCamfail img).monitors = v.monitors ∧ (v.judgeCamfail img).table = v.table ∧
      (v.judgeCamfail img).override = v.override ∧ (v.judgeCamfail img).desired = v.desired ∧
      (v.judgeCamfail img).live = v.live ∧
      (v.judgeCamfail img).camfail = (img.inService && v.live != v.desired) ∧
      (v.judgeCamfail img).pitCamfail = v.pitCamfail ∧
      (v.judgeCamfail img).composer = v.composer ∧ (v.judgeCamfail img).slate = v.slate :=
  ⟨rfl, rfl, rfl, rfl, rfl, rfl, rfl, rfl, rfl⟩

/-- R146: a derivation sets the desired source, and changes neither the monitors nor what is shown. -/
@[simp] theorem Vsl.rederive_frame (v : Vsl) (img : Image) (cue : Nat) (st : ShowState) :
    (v.rederive img cue st).monitors = v.monitors ∧ (v.rederive img cue st).table = v.table ∧
      (v.rederive img cue st).override = v.override ∧
      (v.rederive img cue st).desired = v.desiredFor img cue st ∧
      (v.rederive img cue st).live = v.live ∧
      (v.rederive img cue st).pitCamfail = v.pitCamfail ∧
      (v.rederive img cue st).composer = v.composer ∧ (v.rederive img cue st).slate = v.slate := by
  unfold Vsl.rederive
  dsimp only
  split
  · rename_i h; simp [h]
  · simp

/-- R150: a derivation keeps CAMFAIL told. -/
theorem Vsl.rederive_told (v : Vsl) (img : Image) (cue : Nat) (st : ShowState)
    (h : v.camfail = (img.inService && v.live != v.desired)) :
    (v.rederive img cue st).camfail =
      (img.inService && (v.rederive img cue st).live != (v.rederive img cue st).desired) := by
  unfold Vsl.rederive
  dsimp only
  split
  · exact h
  · simp

@[simp] theorem State.handVideo_frame (img : Image) (s : State) :
    (s.handVideo img).pending = s.pending ∧ (s.handVideo img).now = s.now ∧
      (s.handVideo img).draws = s.draws ∧ (s.handVideo img).image = s.image ∧
      (s.handVideo img).con = s.con ∧ (s.handVideo img).le = s.le ∧
      (s.handVideo img).spu = s.spu ∧ (s.handVideo img).psq = s.psq ∧
      (s.handVideo img).cke = s.cke ∧
      (s.handVideo img).vsl = s.vsl.rederive img s.spu.cue s.spu.showState ∧
      (s.handVideo img).readings = s.readings :=
  ⟨rfl, rfl, rfl, rfl, rfl, rfl, rfl, rfl, rfl, rfl, rfl⟩

/-! ## The click timers and the end of an event -/

theorem SameClick.refl (k : Cke) : SameClick k k := by simp [SameClick]

theorem SameClick.trans {k l m : Cke} (h : SameClick k l) (g : SameClick l m) : SameClick k m := by
  unfold SameClick at *
  refine ⟨g.1.trans h.1, ?_⟩
  simp_all

theorem SameClick.withdrawSampled (k : Cke) : SameClick k k.withdrawSampled := by
  unfold Cke.withdrawSampled Cke.clearDue
  split <;> simp [SameClick]

theorem SameClick.withdrawUnsampled (k : Cke) : SameClick k k.withdrawUnsampled := by
  unfold Cke.withdrawUnsampled Cke.clearDue
  split <;> simp [SameClick]

theorem SameClick.startTimer (k : Cke) (now : Nat) : SameClick k (k.startTimer now) := by
  unfold Cke.startTimer Cke.beatExpiry
  split <;> simp [SameClick]

/-- R117, R118, R121: settling the timers changes the click record in nothing else. -/
theorem SameClick.settle (k : Cke) (runs source : Bool) (now : Nat) :
    SameClick k (k.settle runs source now) := by
  have h := SameClick.withdrawUnsampled k
  unfold Cke.settle
  split
  · split
    · split
      · exact SameClick.refl k
      · exact SameClick.startTimer k now
    · simpa [SameClick] using h
  · simpa [SameClick, Cke.dropSubs] using h

/-- R117: a click that does not run has no beat timer and no shadow timer. -/
theorem Cke.settle_stopped (k : Cke) (source : Bool) (now : Nat) :
    (k.settle false source now).beatTimer = none ∧
      (k.settle false source now).shadow = .stopped := ⟨rfl, rfl⟩

@[simp] theorem State.settleClick_frame (img : Image) (s : State) :
    (s.settleClick img).pending = s.pending ∧ (s.settleClick img).now = s.now ∧
      (s.settleClick img).draws = s.draws ∧ (s.settleClick img).image = s.image ∧
      (s.settleClick img).con = s.con ∧ (s.settleClick img).le = s.le ∧
      (s.settleClick img).spu = s.spu ∧ (s.settleClick img).psq = s.psq ∧
      (s.settleClick img).vsl = s.vsl ∧ (s.settleClick img).readings = s.readings :=
  ⟨rfl, rfl, rfl, rfl, rfl, rfl, rfl, rfl, rfl, rfl⟩

theorem State.settleClick_same (img : Image) (s : State) :
    SameClick s.cke (s.settleClick img).cke := SameClick.settle _ _ _ _

@[simp] theorem State.settleClick_fields (img : Image) (s : State) :
    (s.settleClick img).cke.tempo = s.cke.tempo ∧
      (s.settleClick img).cke.override = s.cke.override ∧
      (s.settleClick img).cke.ramp = s.cke.ramp ∧ (s.settleClick img).cke.bar = s.cke.bar ∧
      (s.settleClick img).cke.beat = s.cke.beat ∧ (s.settleClick img).cke.vamp = s.cke.vamp ∧
      (s.settleClick img).cke.launch = s.cke.launch ∧
      (s.settleClick img).cke.armedTarget = s.cke.armedTarget ∧
      (s.settleClick img).cke.countIn = s.cke.countIn ∧
      (s.settleClick img).cke.compare = s.cke.compare ∧
      (s.settleClick img).cke.part = s.cke.part ∧ (s.settleClick img).cke.lanes = s.cke.lanes ∧
      (s.settleClick img).cke.tap = s.cke.tap := s.settleClick_same img

/-- R155: an event after which the condition is false, or before which it was true, raises no stop. -/
theorem State.videoStop_quiet (img : Image) (s before : State)
    (h : s.videoStopCondition img = true → before.videoStopCondition img = true) :
    s.videoStop img before = s := by
  unfold State.videoStop
  cases hs : s.videoStopCondition img with
  | false => rfl
  | true => simp [h hs]

theorem State.videoStop_uncritical (img : Image) (s before : State)
    (h : img.roles.videoCritical = false) : s.videoStop img before = s :=
  s.videoStop_quiet img before (by simp [State.videoStopCondition, h])

/-- The end of an event without a video stop. -/
theorem State.conclude_quiet (img : Image) (s before : State)
    (h : s.videoStopCondition img = true → before.videoStopCondition img = true) :
    s.conclude img before = (s.settleClick img).flush := by
  rw [State.conclude, s.videoStop_quiet img before h]

/-- The end of an event without a video stop that posted nothing. -/
theorem State.conclude_silent (img : Image) (s before : State)
    (h : s.videoStopCondition img = true → before.videoStopCondition img = true)
    (hc : s.con.together = []) : s.conclude img before = s.settleClick img := by
  rw [s.conclude_quiet img before h, State.flush_empty]
  simpa using hc

/-- The condition depends on the live source, the show state and the cue alone. -/
theorem State.videoStopCondition_congr (img : Image) (s t : State) (h1 : t.vsl.live = s.vsl.live)
    (h2 : t.spu.showState = s.spu.showState) (h3 : t.spu.cue = s.spu.cue) :
    t.videoStopCondition img = s.videoStopCondition img := by
  simp [State.videoStopCondition, h1, h2, h3]

/-- The click timers settle before or after a posting alike. -/
theorem State.settleClick_post (img : Image) (o : Origin) (kind : NoticeKind) (k d1 d2 : Nat)
    (s : State) (h : s.con.together = []) :
    ((s.post o kind k d1 d2).settleClick img).flush =
      { s.settleClick img with con := s.conAfter kind k d1 d2 } := by
  have e : (s.post o kind k d1 d2).settleClick img = (s.settleClick img).post o kind k d1 d2 := by
    simp only [State.post, State.postNotice_first o _ s h]
    rw [State.postNotice_first o _ (s.settleClick img) (by simpa using h)]
    rfl
  rw [e, State.post_flush _ _ _ _ _ _ (by simpa using h)]
  rfl

/-! ## Entering STOPPED -/

/-- R163, R165: with nothing held, an entry to STOPPED from another show state. -/
theorem State.enterStopped_held (img : Image) (d1 k d2 : Nat) (s : State)
    (h : s.spu.showState ≠ .stopped) (hn : s.holdsNothing) :
    s.enterStopped img d1 k d2 =
      ({ s with
          spu := s.spu.stopped (s.snapshotAtStop img)
          psq := s.psq.withdraw.beginHold
          cke := s.cke.stop img } : State).post .spu .stop k d1 d2 := by
  obtain ⟨h1, h2, h3⟩ := hn
  simp only [State.enterStopped, h, if_false, State.dropNotices, h1, h2, h3]
  rfl

/-- R163: in STOPPED nothing is entered. -/
theorem State.enterStopped_stopped (img : Image) (d1 k d2 : Nat) (s : State)
    (h : s.spu.showState = .stopped) : s.enterStopped img d1 k d2 = s := by
  simp [State.enterStopped, h]

@[simp] theorem State.callDropped_frame (img : Image) (o : Origin) (k r a : Nat) (s : State) :
    (s.callDropped img o k r a).pending = s.pending ∧ (s.callDropped img o k r a).now = s.now ∧
      (s.callDropped img o k r a).image = s.image ∧ (s.callDropped img o k r a).le = s.le ∧
      (s.callDropped img o k r a).spu = s.spu ∧ (s.callDropped img o k r a).psq = s.psq ∧
      (s.callDropped img o k r a).cke = s.cke ∧ (s.callDropped img o k r a).vsl = s.vsl := by
  unfold State.callDropped
  split <;> simp

@[simp] theorem State.resumeDropped_frame (img : Image) (o : Origin) (k r : Nat) (s : State) :
    (s.resumeDropped img o k r).pending = s.pending ∧ (s.resumeDropped img o k r).now = s.now ∧
      (s.resumeDropped img o k r).image = s.image ∧ (s.resumeDropped img o k r).le = s.le ∧
      (s.resumeDropped img o k r).spu = s.spu ∧ (s.resumeDropped img o k r).psq = s.psq ∧
      (s.resumeDropped img o k r).cke = s.cke ∧ (s.resumeDropped img o k r).vsl = s.vsl := by
  unfold State.resumeDropped
  split <;> simp

@[simp] theorem State.dropNotices_frame (img : Image) (s : State) :
    (s.dropNotices img).pending = s.pending ∧ (s.dropNotices img).now = s.now ∧
      (s.dropNotices img).image = s.image ∧ (s.dropNotices img).le = s.le ∧
      (s.dropNotices img).spu = s.spu ∧ (s.dropNotices img).psq = s.psq ∧
      (s.dropNotices img).cke = s.cke ∧ (s.dropNotices img).vsl = s.vsl := by
  unfold State.dropNotices
  dsimp only
  cases s.spu.proposal with
  | none => cases s.spu.observed <;> cases s.spu.armed <;> simp
  | some p => cases p <;> cases s.spu.observed <;> cases s.spu.armed <;> simp

/-- R163, R165, R156: an entry to STOPPED from another show state, whatever is held: every block but CON. -/
theorem State.enterStopped_blocks (img : Image) (d1 k d2 : Nat) (s : State)
    (h : s.spu.showState ≠ .stopped) :
    (s.enterStopped img d1 k d2).spu = s.spu.stopped (s.snapshotAtStop img) ∧
      (s.enterStopped img d1 k d2).psq = s.psq.withdraw.beginHold ∧
      (s.enterStopped img d1 k d2).cke = s.cke.stop img ∧
      (s.enterStopped img d1 k d2).vsl = s.vsl ∧
      (s.enterStopped img d1 k d2).le = s.le ∧ (s.enterStopped img d1 k d2).image = s.image ∧
      (s.enterStopped img d1 k d2).pending = s.pending ∧
      (s.enterStopped img d1 k d2).now = s.now := by
  simp [State.enterStopped, h, Spu.stopped]

/-! ## Arrivals -/

/-- R53 to R55: a message that arrives is the one its event takes. -/
theorem State.arriving_of (img : Image) (s : State) (k : Nat) (m : Message)
    (h : Arrives img s k m) : s.arriving img m.kind = some (k, m) := by
  obtain ⟨h1, h2, raw, h3, rfl, h4⟩ := h
  have hp : s.passesOwn img raw.sender = true := by
    unfold State.passesOwn
    by_cases e : raw.sender = img.station
    · simp [h2 e]
    · simp [e]
  simp [State.arriving, State.checked, h3, hp, h4, h1]

end Machine

end Sys2Proof
end

