-- ==== Sys2Proof/Laws/Keeps.lean ====
section
/-! SUPPORT. Laws/Keeps.lean: what every operation of SPU's pipeline (stops, commits, decisions, the resume commit,
the count and its reports) leaves unchanged, whatever it decides. -/

namespace Sys2Proof.Machine

/-- LE, the host's fields, the video shown and its timers, the slot images, the tap mark and CON but for its
notices are as before. -/
structure Keeps (s t : State) : Prop where
  pending : t.pending = s.pending
  image : t.image = s.image
  now : t.now = s.now
  le : t.le = s.le
  notices : t.con.notices = s.con.notices
  loader : t.con.loader = s.con.loader
  safetyLine : t.con.safetyLine = s.con.safetyLine
  attendLine : t.con.attendLine = s.con.attendLine
  attendFlag : t.con.attendFlag = s.con.attendFlag
  attendPosted : t.con.attendPosted = s.con.attendPosted
  lamp : t.con.lamp = s.con.lamp
  monitors : t.vsl.monitors = s.vsl.monitors
  live : t.vsl.live = s.vsl.live
  composer : t.vsl.composer = s.vsl.composer
  slate : t.vsl.slate = s.vsl.slate
  pitCamfail : t.vsl.pitCamfail = s.vsl.pitCamfail
  tap : t.cke.tap = s.cke.tap
  slots : SameSlots s.psq t.psq
  readings : t.readings = s.readings

theorem Keeps.refl (s : State) : Keeps s s :=
  ⟨rfl, rfl, rfl, rfl, rfl, rfl, rfl, rfl, rfl, rfl, rfl, rfl, rfl, rfl, rfl, rfl, rfl,
    SameSlots.refl _, rfl⟩

theorem Keeps.trans {s t u : State} (h : Keeps s t) (g : Keeps t u) : Keeps s u :=
  ⟨g.pending.trans h.pending, g.image.trans h.image, g.now.trans h.now, g.le.trans h.le,
    g.notices.trans h.notices, g.loader.trans h.loader, g.safetyLine.trans h.safetyLine,
    g.attendLine.trans h.attendLine, g.attendFlag.trans h.attendFlag,
    g.attendPosted.trans h.attendPosted, g.lamp.trans h.lamp, g.monitors.trans h.monitors,
    g.live.trans h.live, g.composer.trans h.composer, g.slate.trans h.slate,
    g.pitCamfail.trans h.pitCamfail, g.tap.trans h.tap, h.slots.trans g.slots,
    g.readings.trans h.readings⟩

/-! ## Single updates -/

theorem Keeps.onSpu (f : Spu → Spu) (s : State) : Keeps s (s.onSpu f) :=
  ⟨rfl, rfl, rfl, rfl, rfl, rfl, rfl, rfl, rfl, rfl, rfl, rfl, rfl, rfl, rfl, rfl, rfl,
    SameSlots.refl _, rfl⟩

theorem Keeps.onPsq (f : Psq → Psq) (s : State) (h : SameSlots s.psq (f s.psq)) :
    Keeps s (s.onPsq f) :=
  ⟨rfl, rfl, rfl, rfl, rfl, rfl, rfl, rfl, rfl, rfl, rfl, rfl, rfl, rfl, rfl, rfl, rfl, h, rfl⟩

theorem Keeps.onPorts (img : Image) (f : Psq → Psq) (s : State) (h : SameSlots s.psq (f s.psq)) :
    Keeps s (s.onPorts img f) := Keeps.onPsq _ s (h.trans (SameSlots.beginSends _ _ _ _))

theorem Keeps.onCke (f : Cke → Cke) (s : State) (h : (f s.cke).tap = s.cke.tap) :
    Keeps s (s.onCke f) :=
  ⟨rfl, rfl, rfl, rfl, rfl, rfl, rfl, rfl, rfl, rfl, rfl, rfl, rfl, rfl, rfl, rfl, h,
    SameSlots.refl _, rfl⟩

theorem Keeps.postNotice (o : Origin) (n : Notice) (s : State) : Keeps s (s.postNotice o n) := by
  obtain ⟨xs, h⟩ := s.postNotice_con o n
  have f := s.postNotice_frame o n
  refine ⟨f.1, f.2.2.1, f.2.1, f.2.2.2.1, ?_, ?_, ?_, ?_, ?_, ?_, ?_, ?_, ?_, ?_, ?_, ?_, ?_, ?_, ?_⟩
  all_goals simp [h]
  exact SameSlots.refl _

theorem Keeps.post (o : Origin) (kind : NoticeKind) (k d1 d2 : Nat) (s : State) :
    Keeps s (s.post o kind k d1 d2) := Keeps.postNotice _ _ _

theorem Keeps.handVideo (img : Image) (s : State) : Keeps s (s.handVideo img) := by
  have f := s.vsl.rederive_frame img s.spu.cue s.spu.showState
  exact ⟨rfl, rfl, rfl, rfl, rfl, rfl, rfl, rfl, rfl, rfl, rfl, f.1, f.2.2.2.2.1,
    f.2.2.2.2.2.2.1, f.2.2.2.2.2.2.2, f.2.2.2.2.2.1, rfl, SameSlots.refl _, rfl⟩

theorem Keeps.callDropped (img : Image) (o : Origin) (k r a : Nat) (s : State) :
    Keeps s (s.callDropped img o k r a) := by
  unfold State.callDropped
  split
  · exact Keeps.post _ _ _ _ _ _
  · exact Keeps.refl s

theorem Keeps.resumeDropped (img : Image) (o : Origin) (k r : Nat) (s : State) :
    Keeps s (s.resumeDropped img o k r) := by
  unfold State.resumeDropped
  split
  · exact Keeps.post _ _ _ _ _ _
  · exact Keeps.refl s

/-! ## The click record's tap mark -/

@[simp] theorem Cke.freeStart_tap (k : Cke) (img : Image) (cue : Nat) :
    (k.freeStart img cue).tap = k.tap := rfl

@[simp] theorem Cke.clickStart_tap (k : Cke) (img : Image) (cue : Nat) (p : ClickPart) :
    (k.clickStart img cue p).tap = k.tap := rfl

@[simp] theorem Cke.cueStart_tap (k : Cke) (img : Image) (cue : Nat) (launch : Bool) :
    (k.cueStart img cue launch).tap = k.tap := by
  unfold Cke.cueStart
  dsimp only
  repeat' split
  all_goals rfl

@[simp] theorem Cke.stop_tap (k : Cke) (img : Image) : (k.stop img).tap = k.tap := rfl

@[simp] theorem Cke.resumeStart_tap (k : Cke) (img : Image) (r : ResumeStart) :
    (k.resumeStart img r).tap = k.tap := by
  unfold Cke.resumeStart
  split <;> rfl

@[simp] theorem Cke.entryTest_tap (k : Cke) : k.entryTest.tap = k.tap := by
  unfold Cke.entryTest
  repeat' split
  all_goals rfl

@[simp] theorem Cke.vampRestore_tap (k : Cke) (p : Option Nat) : (k.vampRestore p).tap = k.tap := by
  unfold Cke.vampRestore
  repeat' split
  all_goals rfl

@[simp] theorem Cke.endOfPass_tap (k : Cke) : k.endOfPass.tap = k.tap := by
  unfold Cke.endOfPass
  repeat' split
  all_goals rfl

@[simp] theorem Cke.nextBar_tap (k : Cke) (run : Bool) : (k.nextBar run).tap = k.tap := by
  cases run <;> simp [Cke.nextBar]

@[simp] theorem Cke.launched_tap (k : Cke) (run : Bool) : (k.launched run).tap = k.tap := by
  cases run <;> rfl

@[simp] theorem Cke.launchBeat_tap (k : Cke) (run : Bool) : (k.launchBeat run).tap = k.tap := by
  unfold Cke.launchBeat
  split <;> simp

@[simp] theorem Cke.launchDownbeat_tap (k : Cke) (run : Bool) :
    (k.launchDownbeat run).tap = k.tap := by
  unfold Cke.launchDownbeat
  split <;> simp

@[simp] theorem Cke.restartDownbeat_tap (k : Cke) : k.restartDownbeat.tap = k.tap := by
  simp [Cke.restartDownbeat]

@[simp] theorem Cke.armedDownbeat_tap (k : Cke) (img : Image) (t : Nat) :
    (k.armedDownbeat img t).tap = k.tap := by
  simp [Cke.armedDownbeat]

@[simp] theorem Cke.placeUnarmed_tap (k : Cke) (run : Bool) :
    (k.placeUnarmed run).cke.tap = k.tap := by
  unfold Cke.placeUnarmed Placed.plain
  repeat' split
  all_goals simp

@[simp] theorem Cke.placeDownbeat_tap (k : Cke) (img : Image) (run : Bool) :
    (k.placeDownbeat img run).cke.tap = k.tap := by
  unfold Cke.placeDownbeat Placed.plain
  repeat' split
  all_goals simp

@[simp] theorem Cke.placeBeat_tap (k : Cke) (run : Bool) : (k.placeBeat run).cke.tap = k.tap := by
  unfold Cke.placeBeat Placed.plain
  split <;> simp

@[simp] theorem Cke.rampStep_tap (k : Cke) : k.rampStep.tap = k.tap := by
  unfold Cke.rampStep
  split <;> rfl

@[simp] theorem Cke.sound_tap (k : Cke) (img : Image) (v : Voice) : (k.sound img v).tap = k.tap := by
  unfold Cke.sound
  split <;> rfl

@[simp] theorem Cke.emit_tap (k : Cke) (img : Image) (asRun : Bool) (now : Nat) :
    (k.emit img asRun now).tap = k.tap := by
  unfold Cke.emit
  dsimp only
  repeat' split
  all_goals simp [Cke.dropSubs]

@[simp] theorem Cke.retime_tap (k : Cke) (vfs : Nat) (own : Bool) :
    (k.retime vfs own).tap = k.tap := rfl

/-- R122, R131: a counted beat leaves the mark of the last TAP. -/
@[simp] theorem Cke.count_tap (k : Cke) (img : Image) (run downbeat : Bool) (vfs now : Nat) :
    (k.count img run downbeat vfs now).1.tap = k.tap := by
  unfold Cke.count
  dsimp only
  simp only [Cke.emit_tap, Cke.retime_tap]
  cases downbeat
  · simp only [Bool.false_eq_true, if_false]
    split <;> simp
  · simp only [if_true]
    split <;> simp

theorem Cke.withdrawSampled_tap (k : Cke) : k.withdrawSampled.tap = k.tap :=
  (SameClick.withdrawSampled k).2.2.2.2.2.2.2.2.2.2.2.2

/-! ## Commits -/

theorem Keeps.fireRequest (img : Image) (form : FireForm) (t : Nat) (s : State) :
    Keeps s (s.fireRequest img form t) := by
  unfold State.fireRequest
  dsimp only
  refine Keeps.trans (Keeps.onSpu (fun u => { u with restartRecall := false }) s) ?_
  split <;> split
  · exact (Keeps.post _ _ _ _ _ _).trans
      ((Keeps.post _ _ _ _ _ _).trans (Keeps.onPorts _ _ _ (SameSlots.fire _ _ _ _ _)))
  · exact (Keeps.post _ _ _ _ _ _).trans (Keeps.onPorts _ _ _ (SameSlots.fire _ _ _ _ _))
  · exact (Keeps.post _ _ _ _ _ _).trans (Keeps.onPorts _ _ _ (SameSlots.fire _ _ _ _ _))
  · exact Keeps.onPorts _ _ _ (SameSlots.fire _ _ _ _ _)

theorem Keeps.applyCommit (img : Image) (c : Commit) (s : State) : Keeps s (s.applyCommit img c) := by
  unfold State.applyCommit
  dsimp only
  split
  · exact Keeps.refl s
  · refine Keeps.trans ?_ (Keeps.handVideo img _)
    have h : Keeps s ((((s.onSpu (fun u => u.committed img c)).post .spu
        (if c.forced then .cueLate else .cue) c.proposer c.how.code (bit c.observed)).fireRequest
        img .ordinary c.target)) :=
      Keeps.trans (Keeps.trans (Keeps.onSpu _ s) (Keeps.post _ _ _ _ _ _))
        (Keeps.fireRequest img _ _ _)
    split
    · exact h
    · exact h.trans (Keeps.onCke _ _ (by simp))

theorem Keeps.takeEffect (img : Image) (c : Commit) (s : State) : Keeps s (s.takeEffect img c) := by
  unfold State.takeEffect State.applyObserved
  split
  · split
    · exact Keeps.refl s
    · exact (Keeps.applyCommit img c s).trans (Keeps.onSpu _ _)
  · exact Keeps.applyCommit img c s

theorem Keeps.commitCall (img : Image) (h : HeldCall) (f o : Bool) (s : State) :
    Keeps s (s.commitCall img h f o) := by
  unfold State.commitCall
  split
  · exact Keeps.takeEffect _ _ _
  · exact (Keeps.onSpu _ s).trans (Keeps.onCke _ _ rfl)

theorem Keeps.clearProposal (s : State) : Keeps s s.clearProposal :=
  (Keeps.onSpu _ s).trans (Keeps.onPsq _ _ (SameSlots.refl _))

theorem Keeps.armedDownbeat (img : Image) (s : State) : Keeps s (s.armedDownbeat img) := by
  unfold State.armedDownbeat
  split
  · exact (Keeps.onSpu _ s).trans (Keeps.takeEffect _ _ _)
  · exact Keeps.refl s

theorem Keeps.autoGo (img : Image) (cue : Nat) (s : State) : Keeps s (s.autoGo img cue) := by
  unfold State.autoGo
  dsimp only
  split
  · have h := ((Keeps.clearProposal s).trans (Keeps.onSpu (fun u => { u with observed := none }) _)).trans
      (Keeps.applyCommit img
        { target := s.spu.cue + 1, proposer := img.station, how := .autoGo, forced := false,
          observed := false } _)
    split
    · exact h.trans (Keeps.callDropped _ _ _ _ _ _)
    · exact h
  · exact Keeps.refl s

theorem Keeps.decideCall (img : Image) (c : Contributions) (h : HeldCall) (s : State) :
    Keeps s (s.decideCall img c h) := by
  unfold State.decideCall
  repeat' split
  · exact (Keeps.clearProposal s).trans (Keeps.callDropped _ _ _ _ _ _)
  · exact Keeps.onSpu _ s
  · exact (Keeps.clearProposal s).trans (Keeps.commitCall _ _ _ _ _)
  · exact (Keeps.clearProposal s).trans (Keeps.commitCall _ _ _ _ _)

theorem Keeps.decideObserved (img : Image) (c : Contributions) (h : HeldCall) (s : State) :
    Keeps s (s.decideObserved img c h) := by
  unfold State.decideObserved
  dsimp only
  repeat' split
  · exact (Keeps.onSpu _ s).trans (Keeps.callDropped _ _ _ _ _ _)
  · exact Keeps.onSpu _ s
  · exact (Keeps.onSpu _ s).trans (Keeps.commitCall _ _ _ _ _)
  · exact (Keeps.onSpu _ s).trans (Keeps.commitCall _ _ _ _ _)

/-! ## Resumes -/

theorem Keeps.handResume (img : Image) (r : ResumeStart) (x : Option Source) (s : State) :
    Keeps s (s.handResume img r x) := by
  unfold State.handResume
  dsimp only
  refine Keeps.trans ?_ (Keeps.handVideo img _)
  have h : Keeps s ((s.onCke (fun k => k.resumeStart img r)).fireRequest img .recall r.cue) :=
    Keeps.trans (Keeps.onCke _ s (by simp)) (Keeps.fireRequest img _ _ _)
  refine h.trans ?_
  exact ⟨rfl, rfl, rfl, rfl, rfl, rfl, rfl, rfl, rfl, rfl, rfl, rfl, rfl, rfl, rfl, rfl, rfl,
    SameSlots.refl _, rfl⟩

theorem Keeps.resumeCommit (img : Image) (h : HeldResume) (s : State) :
    Keeps s (s.resumeCommit img h) := by
  unfold State.resumeCommit
  dsimp only
  exact (((Keeps.onSpu _ s).trans (Keeps.onPsq _ _ (SameSlots.refl _))).trans
    (Keeps.post _ _ _ _ _ _)).trans (Keeps.handResume _ _ _ _)

theorem Keeps.decideResume (img : Image) (c : Contributions) (h : HeldResume) (s : State) :
    Keeps s (s.decideResume img c h) := by
  unfold State.decideResume
  repeat' split
  · exact (Keeps.clearProposal s).trans (Keeps.resumeDropped _ _ _ _ _)
  · exact Keeps.onSpu _ s
  · exact (Keeps.clearProposal s).trans (Keeps.post _ _ _ _ _ _)
  · exact Keeps.resumeCommit _ _ _

theorem Keeps.countInComplete (img : Image) (s : State) : Keeps s (s.countInComplete img) := by
  unfold State.countInComplete
  split
  · exact (Keeps.onSpu _ s).trans (Keeps.handVideo _ _)
  · exact Keeps.refl s

/-! ## Stops -/

theorem Keeps.dropNotices (img : Image) (s : State) : Keeps s (s.dropNotices img) := by
  have h : ∀ (t : State) (b : Option HeldCall) , Keeps t (match b with
      | some c => t.callDropped img .spu c.proposer 2 0
      | none => t) := by
    intro t b
    cases b
    · exact Keeps.refl t
    · exact Keeps.callDropped _ _ _ _ _ _
  have g : ∀ (t : State) (b : Option Armed) , Keeps t (match b with
      | some a => t.callDropped img .spu a.proposer 2 1
      | none => t) := by
    intro t b
    cases b
    · exact Keeps.refl t
    · exact Keeps.callDropped _ _ _ _ _ _
  unfold State.dropNotices
  refine Keeps.trans ?_ (g _ _)
  refine Keeps.trans ?_ (h _ _)
  cases s.spu.proposal with
  | none => exact Keeps.refl s
  | some x =>
    cases x
    · exact Keeps.callDropped _ _ _ _ _ _
    · exact Keeps.resumeDropped _ _ _ _ _

theorem Keeps.enterStopped (img : Image) (d1 k d2 : Nat) (s : State) :
    Keeps s (s.enterStopped img d1 k d2) := by
  unfold State.enterStopped
  dsimp only
  split
  · exact Keeps.refl s
  · refine Keeps.trans ?_ (Keeps.post _ _ _ _ _ _)
    refine Keeps.trans ?_ (Keeps.onCke _ _ (by simp))
    refine Keeps.trans ?_ (Keeps.onPsq _ _ ((SameSlots.refl _).trans (SameSlots.beginHold _)))
    exact (Keeps.dropNotices img s).trans (Keeps.onSpu _ _)

theorem Keeps.enterStandby (img : Image) (s : State) : Keeps s (s.enterStandby img) := by
  unfold State.enterStandby
  exact (Keeps.onSpu _ s).trans (Keeps.post _ _ _ _ _ _)

/-! ## What a result does -/

theorem Keeps.takeReports (img : Image) (r : Reports) (s : State) : Keeps s (s.takeReports img r) := by
  have h1 : Keeps s (if r.launch then s.onSpu Spu.launchReport else s) := by
    split
    · exact Keeps.onSpu _ s
    · exact Keeps.refl s
  have h2 : ∀ t, Keeps t (if r.armed then t.armedDownbeat img else t) := by
    intro t; split
    · exact Keeps.armedDownbeat img t
    · exact Keeps.refl t
  have h3 : ∀ t, Keeps t (if r.countIn then t.countInComplete img else t) := by
    intro t; split
    · exact Keeps.countInComplete img t
    · exact Keeps.refl t
  exact (h1.trans (h2 _)).trans (h3 _)

theorem Keeps.takeMatch (img : Image) (r : Reports) (s : State) : Keeps s (s.takeMatch img r) := by
  unfold State.takeMatch
  split
  · exact Keeps.autoGo _ _ _
  · exact Keeps.refl s

theorem Keeps.reportAwaiting (img : Image) (c : Contributions) (s : State) :
    Keeps s (s.reportAwaiting img c) := by
  unfold State.reportAwaiting
  refine Keeps.trans ?_ (Keeps.onSpu _ _)
  have h : Keeps s (if s.spu.awaitingCall && (c.stop || c.dissent) then
      s.callDropped img .spu img.station (if c.stop then 2 else 1) 0 else s) := by
    split
    · exact Keeps.callDropped _ _ _ _ _ _
    · exact Keeps.refl s
  refine h.trans ?_
  generalize (if s.spu.awaitingCall && (c.stop || c.dissent) then
      s.callDropped img .spu img.station (if c.stop then 2 else 1) 0 else s) = t
  split
  · exact Keeps.resumeDropped _ _ _ _ _
  · exact Keeps.refl t

theorem Keeps.decideProposal (img : Image) (c : Contributions) (s : State) :
    Keeps s (s.decideProposal img c) := by
  unfold State.decideProposal
  split
  · exact Keeps.decideCall _ _ _ _
  · exact Keeps.decideResume _ _ _ _
  · exact Keeps.decideObserved _ _ _ _
  · exact Keeps.refl s

theorem Keeps.decideVote (img : Image) (c : Contributions) (s : State) :
    Keeps s (s.decideVote img c) := by
  unfold State.decideVote
  repeat' split
  · exact Keeps.enterStopped _ _ _ _ _
  · exact Keeps.refl s
  · exact Keeps.enterStandby _ _
  · exact Keeps.decideProposal _ _ _

theorem Keeps.referenceWait (img : Image) (s : State) : Keeps s (s.referenceWait img) := by
  unfold State.referenceWait
  repeat' split
  · exact Keeps.onSpu _ s
  · exact Keeps.onSpu _ s
  · exact Keeps.refl s

theorem Keeps.countResult (img : Image) (c : Contributions) (edge : Nat) (s : State) :
    Keeps s (s.countResult img c edge).1 := by
  unfold State.countResult State.countBeat
  split
  · exact Keeps.onCke (fun k => (k.count img (s.spu.showState == .run) c.downbeat
      (edge + img.charTime) (edge + 5 * img.charTime)).1) s (by simp)
  · exact Keeps.refl s

theorem Keeps.countDriven (img : Image) (d : Bool) (edge : Nat) (s : State) :
    Keeps s (s.countDriven img d edge).1 := by
  unfold State.countDriven State.countBeat
  split
  · exact Keeps.onCke (fun k => (k.count img (s.spu.showState == .run) s.le.sampled.downbeat
      (edge + img.charTime) (edge + 5 * img.charTime)).1) s (by simp)
  · exact Keeps.refl s

theorem Keeps.settleClick (img : Image) (s : State) : Keeps s (s.settleClick img) :=
  Keeps.onCke _ s (s.settleClick_same img).2.2.2.2.2.2.2.2.2.2.2.2

/-! ## The whole hand-off -/

/-- R29: after a clean result LE, the host's fields, the slot images and the video shown are as before; the
lamp and the pit's CAMFAIL follow the result. -/
theorem State.handResult_frame (img : Image) (c : Contributions) (edge : Nat) (s : State) :
    (s.handResult img c edge).le = s.le ∧ (s.handResult img c edge).image = s.image ∧
      (s.handResult img c edge).pending = s.pending ∧
      (s.handResult img c edge).vsl.live = s.vsl.live ∧
      (s.handResult img c edge).vsl.monitors = s.vsl.monitors ∧
      (s.handResult img c edge).vsl.composer = s.vsl.composer ∧
      (s.handResult img c edge).vsl.slate = s.vsl.slate ∧
      (s.handResult img c edge).vsl.pitCamfail = c.camfail ∧
      (s.handResult img c edge).cke.tap = s.cke.tap ∧
      SameSlots s.psq (s.handResult img c edge).psq ∧
      (s.handResult img c edge).con.loader = s.con.loader ∧
      (s.handResult img c edge).con.safetyLine = s.con.safetyLine ∧
      (s.handResult img c edge).con.lamp = (if img.roles.sm then c.attend else s.con.lamp) ∧
      (s.handResult img c edge).readings = s.readings := by
  have k0 := (Keeps.countResult img c edge s).trans
    ((Keeps.onCke Cke.withdrawSampled _ (Cke.withdrawSampled_tap _)).trans
      (Keeps.takeReports img (s.countResult img c edge).2 _))
  revert k0
  generalize hs1 : (((s.countResult img c edge).1.onCke Cke.withdrawSampled).takeReports img
    (s.countResult img c edge).2) = s1
  intro k0
  have k1 : ∀ t, Keeps t (((((t.reportAwaiting img c).decideVote img c).takeMatch img
      (s.countResult img c edge).2).onSpu Spu.closeWindow).referenceWait img) := fun t =>
    ((((Keeps.reportAwaiting img c t).trans (Keeps.decideVote img c _)).trans
      (Keeps.takeMatch img _ _)).trans (Keeps.onSpu _ _)).trans (Keeps.referenceWait img _)
  have e : s.handResult img c edge = (((((((s1.takePitCamfail img c.camfail).lightLamp img
      c.attend).reportAwaiting img c).decideVote img c).takeMatch img
      (s.countResult img c edge).2).onSpu Spu.closeWindow).referenceWait img) := by
    subst hs1; rfl
  rw [e]
  generalize ht : ((s1.takePitCamfail img c.camfail).lightLamp img c.attend) = t
  have k := k1 t
  have hv : t.le = s1.le ∧ t.image = s1.image ∧ t.pending = s1.pending ∧
      t.vsl.live = s1.vsl.live ∧ t.vsl.monitors = s1.vsl.monitors ∧
      t.vsl.composer = s1.vsl.composer ∧ t.vsl.slate = s1.vsl.slate ∧
      t.vsl.pitCamfail = c.camfail ∧ t.cke.tap = s1.cke.tap ∧ t.psq = s1.psq ∧
      t.con.loader = s1.con.loader ∧ t.con.safetyLine = s1.con.safetyLine ∧
      t.con.lamp = (if img.roles.sm then c.attend else s1.con.lamp) ∧
      t.readings = s1.readings := by
    subst ht
    unfold State.takePitCamfail State.lightLamp
    have hl : ∀ (b : Bool) (x : State) (o kd k d1 d2), (x.post o kd k d1 d2).con.lamp = x.con.lamp :=
      fun _ x o kd k d1 d2 => (Keeps.post o kd k d1 d2 x).lamp
    by_cases h1 : c.camfail = s1.vsl.pitCamfail <;> by_cases h2 : img.roles.sm = true <;>
      simp [h1, h2, hl true]
  refine ⟨k.le.trans (hv.1.trans k0.le), k.image.trans (hv.2.1.trans k0.image),
    k.pending.trans (hv.2.2.1.trans k0.pending), k.live.trans (hv.2.2.2.1.trans k0.live),
    k.monitors.trans (hv.2.2.2.2.1.trans k0.monitors),
    k.composer.trans (hv.2.2.2.2.2.1.trans k0.composer),
    k.slate.trans (hv.2.2.2.2.2.2.1.trans k0.slate), k.pitCamfail.trans hv.2.2.2.2.2.2.2.1,
    k.tap.trans (hv.2.2.2.2.2.2.2.2.1.trans k0.tap), ?_,
    k.loader.trans (hv.2.2.2.2.2.2.2.2.2.2.1.trans k0.loader),
    k.safetyLine.trans (hv.2.2.2.2.2.2.2.2.2.2.2.1.trans k0.safetyLine), ?_,
    k.readings.trans (hv.2.2.2.2.2.2.2.2.2.2.2.2.2.trans k0.readings)⟩
  · have h := hv.2.2.2.2.2.2.2.2.2.1
    intro p
    rw [k.slots p, h, k0.slots p]
  · rw [k.lamp, hv.2.2.2.2.2.2.2.2.2.2.2.2.1, k0.lamp]

end Sys2Proof.Machine
end

