-- ==== Sys2Proof/Laws/Words.lean ====
section
/-! SUPPORT. Laws/Words.lean: what the shared operations do, in the words of the statements (Safety.lean). -/

namespace Sys2Proof.Machine

/-! ## What the received bytes read as (R14) -/

theorem State.readsAs_iff (s : State) (x : Reading) : s.readsAs x = true ↔ ReadsAs s x := by
  unfold State.readsAs State.readingOf ReadsAs
  cases s.readings.lookup s.con.received <;> simp

theorem State.recordReading_records (s : State) (x : Reading) (h : ReadsAs s x) :
    RecordsReading x s (s.recordReading x) := by
  intro b
  unfold State.recordReading State.readingOf
  by_cases e : b = s.con.received
  · subst e
    rcases h with h | h <;> simp [h, List.lookup_append, List.lookup]
  · have e' : (b == s.con.received) = false := by simpa using e
    rcases h with h | h <;> simp [h, e, e', List.lookup_append, List.lookup]

/-- Nothing but the record of readings changes. -/
@[simp] theorem State.recordReading_frame (s : State) (x : Reading) :
    (s.recordReading x).pending = s.pending ∧ (s.recordReading x).now = s.now ∧
      (s.recordReading x).draws = s.draws ∧ (s.recordReading x).image = s.image ∧
      (s.recordReading x).con = s.con ∧ (s.recordReading x).le = s.le ∧
      (s.recordReading x).spu = s.spu ∧ (s.recordReading x).psq = s.psq ∧
      (s.recordReading x).cke = s.cke ∧ (s.recordReading x).vsl = s.vsl :=
  ⟨rfl, rfl, rfl, rfl, rfl, rfl, rfl, rfl, rfl, rfl⟩

/-! ## The line (R27, R32, R35, R36) -/

theorem State.contributions_posts (s : State) : Posts s s.contributions :=
  ⟨rfl, rfl, rfl, rfl, rfl, rfl, rfl⟩

theorem Posts.eq {s : State} {c : Contributions} (h : Posts s c) : c = s.contributions := by
  obtain ⟨h1, h2, h3, h4, h5, h6, h7⟩ := h
  cases c
  simp_all [State.contributions]

theorem Le.sendsIn_iff (l : Le) (img : Image) (r : Round) (slot : Nat) :
    l.sendsIn img r slot = true ↔ MaySend img l r slot := by
  simp [Le.sendsIn, MaySend, and_assoc]

theorem State.seeBreak_seen (s : State) (t : Nat) :
    SeesBreak t s ((s.reach t).onLe (fun l => l.seeBreak (max s.now t))) := by
  refine ⟨rfl, ?_⟩
  have h1 : (if s.le.breakNow (max s.now t) then s.le.breakDriving else none) =
      if max s.now t < s.le.breakUntil then s.le.breakDriving else none := by
    unfold Le.breakNow
    cases s.le.breakDriving <;> simp
  rw [← h1]
  rfl

/-- R35: what a break request does. -/
theorem Le.requestBreak_keeps (l : Le) (now : Nat) :
    l.requestBreak now = { l with breakPending := KeepsBreak l now } := by
  show (if _ then _ else _) = _
  by_cases h : (l.state = .joined && !l.breakNow now) = true
  · have k : KeepsBreak l now = true := Bool.or_eq_true_iff.2 (.inr h)
    rw [if_pos h, k]
  · have k : KeepsBreak l now = l.breakPending := by
      show (l.breakPending || (l.state = .joined && !l.breakNow now)) = l.breakPending
      rw [Bool.eq_false_iff.2 h, Bool.or_false]
    rw [if_neg h, k]

/-- R35, R57: what a raise does to LE: the HALT is submitted, and the break request is kept or merged. -/
theorem Le.requestBreak_submitHalt (l : Le) (now : Nat) (f : HaltFields) :
    (l.requestBreak now).submitHalt f =
      { l.submitHalt f with breakPending := KeepsBreak l now } := by
  rw [Le.requestBreak_keeps]
  show (if (l.holds .halt || l.waitingHalt.isSome) = true then _
    else if l.entryInFlight = true then _ else _) = _
  rw [Le.submitHalt]
  split
  · rfl
  · split <;> rfl

/-- R47: what LE drives as a warm reset comes is finished: it lasts up to breakUntil. -/
theorem Le.warm_finishes (l : Le) (img : Image) (now : Nat) (w : Samples)
    (h : l.driving img now = some w) :
    (l.warm img now).drive = [w] ∧
      (l.warm img now).breakUntil = (l.warm img now).driveFrom + img.charTime := by
  simp [Le.warm, Le.lastDriven, Le.driveEnds, h]

/-! ## The choice of the source (R148) -/

theorem Vsl.rechoose_chosen (v : Vsl) (img : Image) : Rechosen img (v.rechoose img) := by
  refine ⟨fun d hd hl => ?_, fun h => ?_⟩
  · simp only [Vsl.rechoose] at hd hl ⊢
    have hc : v.choice img = some d := by simp [Vsl.choice, hd, Vsl.locked, hl]
    simp only [hc]
    by_cases e : v.live = some d
    · rw [if_pos e.symm]; exact (if_pos e).symm
    · rw [if_neg (fun g => e g.symm)]; exact (if_neg e).symm
  · simp only [Vsl.rechoose] at h ⊢
    have hc : v.choice img = v.fallback img := by
      rcases h with h | ⟨d, hd, hl⟩
      · simp [Vsl.choice, h]
      · simp [Vsl.choice, hd, Vsl.locked, hl]
    refine ⟨fun hl => ?_, fun hl => ?_⟩
    · obtain ⟨x, hx⟩ := Option.ne_none_iff_exists'.mp hl
      simp [hc, Vsl.fallback, hx]
    · simp only [hc, Vsl.fallback, hl, Vsl.locked]
      split
      · rename_i g; exact g.symm
      · rfl

/-! ## On period (R26) -/

theorem nearExpiry_iff (img : Image) (edge : Nat) (x : Option Nat) :
    nearExpiry img edge x = true ↔
      ∃ e, x = some e ∧ 2 * (edge - e) ≤ img.charTime ∧ 2 * (e - edge) ≤ img.charTime := by
  cases x <;> simp [nearExpiry, withinHalfChar]

theorem Le.onPeriod_iff (l : Le) (img : Image) (r : Round) :
    l.onPeriod img r = true ↔ OnPeriod img l r := by
  unfold Le.onPeriod OnPeriod
  cases l.localRunning <;> simp only [Bool.or_eq_true, nearExpiry_iff, if_true, if_false,
    Bool.false_eq_true] <;> constructor
  all_goals
    rintro (h | h)
    · exact .inl h
  · obtain ⟨e, a, b⟩ | ⟨e, a, b⟩ := h
    · exact .inr ⟨e, .inl a, b⟩
    · exact .inr ⟨e, .inr a, b⟩
  · obtain ⟨e, a | a, b⟩ := h
    · exact .inr (.inl ⟨e, a, b⟩)
    · exact .inr (.inr ⟨e, a, b⟩)
  · obtain ⟨e, a, b⟩ | ⟨e, a, b⟩ := h
    · exact .inr ⟨e, .inl a, b⟩
    · exact .inr ⟨e, .inr a, b⟩
  · obtain ⟨e, a | a, b⟩ := h
    · exact .inr (.inl ⟨e, a, b⟩)
    · exact .inr (.inr ⟨e, a, b⟩)

/-! ## The start of the beat timer (R121) -/

theorem Cke.beatExpiry_starts (k : Cke) (now : Nat) (x : Shadow) (h : ∀ p, x ≠ .running p) :
    StartsBeatTimer x now (k.beatExpiry now) := by
  refine ⟨fun p e => absurd e (h p), fun _ => ⟨rfl, rfl, rfl, fun g => ?_, fun part g q => ?_⟩⟩
  · have g' : k.launch = true := g
    show (k.launch || decide (k.meter ≤ k.beat)) = true
    rw [g', Bool.true_or]
  · have g' : k.launch = false := g
    have q' : k.part = some part := q
    have m : k.meter = part.meter := by rw [Cke.meter, q']
    show (k.launch || decide (k.meter ≤ k.beat)) = decide (part.meter ≤ k.beat)
    rw [g', Bool.false_or, m]

/-- R121: where the click runs at the beat source, a timer that does not run starts. -/
theorem Cke.settle_starts (k : Cke) (now : Nat) (h : k.beatTimer = none) :
    StartsBeatTimer k.shadow now (k.settle true true now) := by
  have e : k.settle true true now = k.startTimer now := by
    rw [Cke.settle, if_pos rfl, if_pos rfl, h]
  rw [e, Cke.startTimer]
  cases x : k.shadow with
  | running p =>
    refine ⟨fun q g => ?_, fun g => ?_⟩
    · cases g; rfl
    · rcases g with g | g <;> cases g
  | lapsed => exact k.beatExpiry_starts now _ (fun p g => by cases g)
  | stopped => exact k.beatExpiry_starts now _ (fun p g => by cases g)

/-! ## The hold at an entry to STOPPED (R110) -/

/-- The buffers of the served ports emptied, port by port. -/
theorem Psq.dropServed_get (q : Psq) (served : Ports Bool) (p : Port) :
    (q.dropServed served).ports.get p =
      if served.get p = true then { q.ports.get p with buffer := .empty } else q.ports.get p := by
  rcases served with ⟨a, b⟩
  cases a <;> cases b <;> cases p <;> rfl

/-- R110: the buffers as the hold comes into force. -/
theorem Psq.beginHold_get (q : Psq) (p : Port) (h : q.hold = false) :
    (LosesBuffer q p → q.beginHold.ports.get p = { q.ports.get p with buffer := .empty }) ∧
      (¬ LosesBuffer q p → q.beginHold.ports.get p = q.ports.get p) := by
  rcases q with ⟨ports, _ | ⟨st, _ | _, cu, fo, sv⟩, _ | ⟨wt, _ | _, ws⟩, target, hold, notReady⟩ <;>
    cases h
  all_goals
    simp only [Psq.beginHold, Psq.judge, Psq.followScan, LosesBuffer, Psq.dropServed_frame]
  all_goals
    first
    | (cases e : sv.get p <;> cases g : ws.get p <;> simp [Psq.dropServed_get, e, g]; done)
    | (cases e : sv.get p <;> simp [Psq.dropServed_get, e]; done)
    | (cases e : ws.get p <;> simp [Psq.dropServed_get, e]; done)
    | (simp; done)
    | (by_cases e : st = wt <;> simp [e]; done)

/-- R99, R104, R110: an entry to STOPPED withdraws the pending target and brings the hold into force. -/
theorem Psq.stop_holds (q : Psq) : BeginsHold q q.withdraw.beginHold := by
  refine ⟨?_, ?_, fun h => ?_, fun h => ⟨fun p => ?_, ?_, ?_⟩⟩
  · unfold Psq.beginHold; split <;> simp_all [Psq.judge, Psq.withdraw]
  · simp [Psq.withdraw]
  · have e : q.withdraw.beginHold = q.withdraw := by
      unfold Psq.beginHold
      exact if_pos h
    rw [e]
    exact ⟨rfl, rfl, rfl⟩
  · exact q.withdraw.beginHold_get p h
  all_goals
    rcases q with
      ⟨ports, _ | ⟨st, _ | _, cu, fo, sv⟩, _ | ⟨wt, _ | _, ws⟩, target, hold, notReady⟩ <;> cases h
  all_goals
    simp [Psq.beginHold, Psq.judge, Psq.followScan, Psq.withdraw, Scan.start, blankSlots, Config.slots]

/-! ## The pending target at a port (R99, R112) -/

/-- The row of R99 at a buffer. -/
theorem handRow_rows (b : Buffer) (t : PendingTarget) (cue : Nat) (hold : Bool) :
    (b.owes = true → (hold = false ∨ t.kind = .call) → handRow b t cue hold = .keep) ∧
      (b.owes = false → Suits b t → handRow b t cue hold = .keep) ∧
      (b.owes = false → ¬ Suits b t → t.kind = .call → t.target = cue + 1 →
        handRow b t cue hold = .delta) ∧
      (JoinsFor b t cue hold → handRow b t cue hold = .recall) := by
  rcases t with ⟨x, k⟩
  have c : ∀ k b, (Purpose.accepts k b = true) = (k = .call ∨ b = .recall) := by
    intro k b; cases k <;> cases b <;> simp [Purpose.accepts]
  unfold JoinsFor Suits handRow
  rcases b with _ | ⟨y, l, _ | _⟩ | ⟨y, l, refs⟩ | ⟨y, l, refs⟩ <;> cases k <;> cases hold
  all_goals try rcases l with _ | _
  all_goals simp [Buffer.owes, Load.kind, Purpose.accepts]
  all_goals first | (by_cases e : y = x <;> simp [e]; done) | skip

/-- The joins of one pending target with no scan running or queued: one scan serves the ports that join. -/
theorem Psq.handTarget_hands (q : Psq) (t : PendingTarget) (cue : Nat) :
    HandsTarget q (q.handTarget t cue) t cue := by
  refine ⟨?_, ?_, fun h1 h2 => ?_⟩
  · exact (q.handTarget_frame t cue).1
  · exact (q.handTarget_frame t cue).2
  rcases q with ⟨⟨ra, rb⟩, scan, queued, target, hold, notReady⟩
  cases h1
  cases h2
  have ha := handRow_rows ra.buffer t cue hold
  have hb := handRow_rows rb.buffer t cue hold
  obtain ⟨q', e⟩ : ∃ q', q' = Psq.handTarget ⟨⟨ra, rb⟩, none, none, target, hold, notReady⟩ t cue :=
    ⟨_, rfl⟩
  rw [← e]
  unfold Psq.handTarget at e
  dsimp only at e
  generalize handRow ra.buffer t cue hold = x at ha e
  generalize handRow rb.buffer t cue hold = y at hb e
  rcases t with ⟨tt, k⟩
  have j : k.join k = k := by cases k <;> rfl
  cases x <;> cases y
  all_goals
    simp only [Psq.handEmpty, Psq.handBegin, Psq.emptyBuffer, Psq.beginDelta, Psq.joinRecall,
      Psq.setBuffer, Psq.onPort, Psq.judge, Scan.start, Ports.set, Ports.get, noPorts, if_true,
      Option.map_none, j] at e
    subst e
    refine ⟨rfl, fun p => ?_⟩
    cases p
  all_goals
    first
    | (refine ⟨_, rfl, fun h1 h2 => ?_, fun h1 h2 => ?_, fun h1 h2 h3 h4 => ?_, fun h => ?_⟩)
  all_goals
    first
    | rfl
    | (exact ⟨rfl, _, rfl, rfl⟩)
    | (exact ⟨rfl, ⟨true, true⟩, rfl, rfl⟩)
    | (exact absurd (ha.1 h1 h2) (by simp))
    | (exact absurd (ha.2.1 h1 h2) (by simp))
    | (exact absurd (ha.2.2.1 h1 h2 h3 h4) (by simp))
    | (exact absurd (ha.2.2.2 h) (by simp))
    | (exact absurd (hb.1 h1 h2) (by simp))
    | (exact absurd (hb.2.1 h1 h2) (by simp))
    | (exact absurd (hb.2.2.1 h1 h2 h3 h4) (by simp))
    | (exact absurd (hb.2.2.2 h) (by simp))

end Sys2Proof.Machine
end

