-- ==== Sys2Proof/Tests/Slice0.lean ====
section
/-! SUPPORT. Tests/Slice0.lean: ill-formed commands that the check refuses; small runs of one command; and for
every statement with hypotheses a state and operands that meet them (the file's states are built from a few
helpers). -/

namespace Sys2Proof.Tests

open Sys2Proof Sys2Proof.Machine

/-! ## Well-formedness -/

theorem test_breakStart_position0 : Instr.wellFormed (.breakStart 0 0) = false := by decide
theorem test_breakStart_position1 : Instr.wellFormed (.breakStart 1 0) = true := by decide
theorem test_characterReceived_position5 :
    Instr.wellFormed (.characterReceived 5 0) = false := by decide
theorem test_characterReceived_position42 :
    Instr.wellFormed (.characterReceived 42 0) = false := by decide
theorem test_characterReceived_ends :
    Instr.wellFormed (.characterReceived 6 0) = true ∧
      Instr.wellFormed (.characterReceived 41 0) = true := by decide
theorem test_unknownCommand_listed : Instr.wellFormed (.unknownCommand 0x1F) = false := by decide
theorem test_unknownCommand_unlisted : Instr.wellFormed (.unknownCommand 0x20) = true := by decide

/-! ## A small show -/

def click : ClickPart :=
  { tempo := 1200, meter := 4, subdivision := 2, accents := 1,
    lanes := { l0 := true, l1 := false, l2 := false, l3 := false }, ramp := none, vamp := none }

def cueOf (start : Nat) (safe : Bool) (part : Option ClickPart) : Cue :=
  { label := [65], startBar := start, resumeSafe := safe, click := part, autoGo := none }

def lane : LaneMode := { toggle := false, subdivisions := true }

def action (p : Port) (slot : Nat) : PatchAction :=
  { port := some p, slot := slot, bytes := [1], settle := none }

/-- Four cues: FREE, click, click, FREE; station 3 calls, is SM and has video. -/
def pit : Image :=
  { showId := 7, lineRate := 500000, period := 48, patience := 2, resumePatience := 16,
    callers := 8, ranking := [3, 5],
    cues := [cueOf 1 false none, cueOf 1 true (some click), cueOf 9 true (some click),
      cueOf 20 false none],
    station := 3, roles := { caller := true, sm := true, video := true, videoCritical := false },
    goDownbeat := true, lanes := { l0 := lane, l1 := lane, l2 := lane, l3 := lane },
    portRates := { a := 19200, b := 115200 }, pool := [action .a 0, action .b 15],
    entries := [{ cue := 1, patch := some { first := 0, count := 2 }, video := none }],
    frameInterval := 100, failover := [some .front, some .lowlight, some .wide] }

/-- The pit with a critical camera. -/
def criticalPit : Image := { pit with roles := { pit.roles with videoCritical := true } }

/-- The same station outside the caller set and the ranking. -/
def stagehand : Image :=
  { pit with callers := 0, ranking := [5], roles := { pit.roles with caller := false } }

def con : Con := { Con.cold with loader := .accepted, notices := [] }

/-- A station with an image held, at the cold values otherwise. -/
def ready (img : Image) : State := { State.reset with image := some img, con := con }

def atLine (img : Image) (l : LineState) : State :=
  (ready img).onLe (fun x => { x with state := l, roundTimer := some 1000 })

def joined : State := atLine pit .joined
def listening : State := atLine pit .listen

def localListen : State :=
  listening.onLe (fun x => { x with localRunning := true, listenTimer := some 1000 })

def isolated : State := (atLine pit .isolated).onLe (fun x => { x with localRunning := true })

def inShow (x : ShowState) (cue : Nat) (s : State) : State :=
  (s.onSpu (fun u => { u with showState := x, cue := cue, suspect := false })).onCke
    (fun k => { k with part := pit.clickOf cue })

def inLocalRound (st : Stage) (s : State) : State :=
  s.onLe (fun x => { x with localRound := some { edge := 0, stage := st } })

def roundAt (st : Stage) : Round :=
  { Round.opened 0 true 0 with stage := st, markGood := true, onPeriod := true, clean := true }

def inRound (st : Stage) (s : State) : State :=
  s.onLe (fun x => { x with round := some (roundAt st) })

def votes (d0 : Byte) : List Samples :=
  [charBitsOf .vote d0, charBitsOf .vote 8, charBitsOf .vote 0, charBitsOf .vote 0]

def vote (d : Byte) : Samples := charBitsOf .vote d

/-- One command at a state. -/
def after (c : Instr) (s : State) : State :=
  match exec c s with
  | .next t => t
  | .fault _ => s
  | .refused _ => s

/-! ## The step and the loader -/

theorem test_step_takes_front :
    step { State.reset with pending := [.captionSent, .breakSeen] } =
      .next { State.reset with pending := [.breakSeen] } := rfl

theorem test_load_bytes :
    let s := State.reset.onCon (fun c => { c with declared := some 64, received := List.replicate 63 0 })
    s.con.loader = .loading ∧ s.con.declared = some 64 ∧ s.con.received.length < 64 ∧
      (after (.byteArrival 1) s).con.loader = .checking := by decide

theorem test_load_first_bytes :
    State.reset.con.loader = .loading ∧ State.reset.con.declared = none ∧
      State.reset.con.received = [] ∧
      (after (.byteArrival 0) State.reset).con.received = [0] ∧
      (after (.byteArrival 63) (after (.byteArrival 0) State.reset)).con.lengthFault = true := by
  decide

def checking : State :=
  State.reset.onCon (fun c => { c with loader := .checking, received := [0, 64], sum := 64 })

theorem test_accept_met :
    checking.con.loader = .checking ∧ checking.con.loadFault (.fields pit) = none ∧
      checking.con.safetyLine = false ∧ checking.con.together = [] := by decide

theorem test_accept_safety_met :
    let s := checking.onCon (fun c => { c with safetyLine := true })
    s.con.loader = .checking ∧ s.con.loadFault (.fields pit) = none ∧ s.con.safetyLine = true ∧
      s.con.together = [] ∧ s.con.notices.length < 32 := by decide

theorem test_failed_met :
    checking.con.loader = .checking ∧
      checking.con.loadFault (.unformed none) =
        some { fault := .format, cue := 0, detail := 0 } ∧
      checking.con.loadFault (.fields { pit with period := 47 }) =
        some { fault := .period, cue := 0, detail := 0 } ∧ checking.con.together = [] := by decide

theorem test_readings_met :
    let f := after (.failed (.unformed none)) checking
    let b := f.onCon (fun c => { c with loader := .checking })
    let c := b.onCon (fun c => { c with received := [0, 65], sum := 65 })
    checking.readings.lookup checking.con.received = none ∧
      f.readings = [([0, 64], .unformed none)] ∧ f.con.loader = .failed ∧
      b.readings.lookup b.con.received = some (.unformed none) ∧
      after (.imageAccepted 0 pit) b = b ∧ after (.failed (.unformed (some 3))) b = b ∧
      (after (.failed (.unformed none)) b).con.loader = .failed ∧
      (after (.imageAccepted 0 pit) c).con.loader = .accepted ∧
      (after (.imageAccepted 0 pit) c).readings.length = 2 ∧
      (after .coldReset f).readings = f.readings := by decide

/-! ## The image checks -/

def faultOf (img : Image) : Option (LoadFault × Nat × Nat) :=
  (fieldFault img).map (fun f => (f.fault, f.cue, f.detail))

def entry (cue : Nat) (patch : Option PatchPart) : CueEntry :=
  { cue := cue, patch := patch, video := none }

def withCues (a b : Cue) : Image := { pit with cues := [cueOf 1 false none, a, b], entries := [] }

theorem test_checks_plain_met :
    faultOf pit = none ∧ faultOf { pit with lineRate := 0 } = some (.rate, 0, 0) ∧
      faultOf { pit with period := 256 } = some (.period, 0, 0) ∧
      faultOf { pit with cues := [] } = some (.cueCount, 0, 0) ∧
      faultOf { pit with resumePatience := 15 } = some (.field, 0, 0) ∧
      faultOf { pit with ranking := [3, 3] } = some (.ranking, 0, 2) ∧
      faultOf { pit with callers := 0 } = some (.role, 0, 1) ∧
      faultOf { stagehand with roles := { pit.roles with
        caller := false, video := false, videoCritical := true } } = some (.role, 0, 2) ∧
      faultOf { pit with failover := [some .front, none, some .wide] } =
        some (.failover, 0, 0) := by decide

theorem test_checks_entries_met :
    faultOf { pit with entries := [entry 0 none] } = none ∧
      faultOf { pit with entries := [entry 0 none, entry 0 (some { first := 0, count := 1 })] } =
        some (.cue0, 0, 0) ∧
      faultOf { pit with entries := [entry 2 none, entry 4 none, entry 2 none] } =
        some (.cueRef, 2, 0) ∧
      faultOf { pit with entries := [entry 1 (some { first := 1, count := 2 })] } =
        some (.patchRef, 1, 0) := by decide

theorem test_checks_cues_met :
    faultOf (withCues (cueOf 9 true none) (cueOf 1 true none)) = some (.order, 2, 0) ∧
      faultOf (withCues (cueOf 9 true none) (cueOf 9 true (some { click with
        vamp := some { start := 8, length := 1, repeats := 0 } }))) = some (.vamp, 2, 0) ∧
      faultOf (withCues { cueOf 1 true none with autoGo := some { bar := 1, beat := 1 } }
        (cueOf 9 true none)) = some (.autoGo, 1, 0) := by decide

theorem test_checks_bytes_met :
    let c := checking.con
    (c.loadFault (.fields pit)).isNone = true ∧ c.sum = c.checkValue ∧
      ({ c with lengthFault := true } : Con).loadFault (.fields pit) =
        some { fault := .length, cue := 0, detail := 0 } ∧
      ({ c with sum := 5 } : Con).loadFault (.fields pit) =
        some { fault := .sum, cue := 0, detail := 0 } := by decide

/-! ## Rounds -/

theorem test_edge_met :
    joined.image = some pit ∧ joined.le.state = .joined ∧ joined.le.round = none ∧
      joined.le.breakDriving = none ∧
      (after (.roundOpening 5 0) joined).le.round = some (Round.opened 5 false 0) := by decide

theorem test_expiry_met :
    joined.le.localRunning = false ∧ joined.le.roundTimer = some 1000 ∧
      joined.con.together = [] ∧
      (after (.roundTimerExpiry true) joined).le.drive = [charBitsOf .mark 1] := by decide

theorem test_silence_met :
    listening.image = some pit ∧ listening.le.state = .listen ∧ listening.con.together = [] ∧
      listening.le.silenceCount < 2 ∧ listening.le.round = none ∧ localListen.le.round = none ∧
      listening.le.localRunning = false ∧
      listening.le.roundTimer = some 1000 ∧ localListen.image = some pit ∧
      localListen.le.state = .listen ∧ localListen.le.localRunning = true ∧
      localListen.le.listenTimer = some 1000 := by decide

theorem test_join_silent_met :
    let s := listening.onLe (fun x => { x with silenceCount := 2 })
    let l := localListen.onLe (fun x => { x with silenceCount := 2 })
    s.le.dominantSeen = false ∧ s.le.silenceCount = 2 ∧ s.le.breakDriving = none ∧
      s.le.round = none ∧
      s.le.localRunning = false ∧ s.le.roundTimer = some 1000 ∧
      (after (.roundTimerExpiry true) s).le.state = .joined ∧ l.le.silenceCount = 2 ∧
      l.le.localRunning = true ∧ l.le.listenTimer = some 1000 ∧
      (after (.listenTimerExpiry true) l).le.state = .joined := by decide

theorem test_local_round_met :
    let s := isolated.onLe (fun x => { x with isolationCount := 15 })
    isolated.image = some pit ∧ isolated.le.localRunning = true ∧
      isolated.le.roundTimer = some 1000 ∧ isolated.con.together = [] ∧
      isolated.le.state = .isolated ∧ isolated.le.isolationCount < 15 ∧
      localListen.le.roundTimer = some 1000 ∧ (after (.roundTimerExpiry false) s).le.state = .listen := by
  decide

theorem test_mark_met :
    let s := inRound .opening joined
    s.image = some pit ∧ s.le.round = some (roundAt .opening) ∧ s.le.localRunning = false ∧
      s.le.resync = false ∧ (after (.markSeen (charBitsOf .mark 9)) s).le.roundCount = 9 ∧
      (after (.markSeen 0) s).le.blind = true ∧
      receiveChar (charBitsOf .mark 9) = some { kind := .mark, data := 9, error := none } ∧
      receiveChar (charBitsOf .vote 9) = some { kind := .vote, data := 9, error := none } ∧
      receiveChar 3 = some { kind := .head, data := 0, error := none } ∧
      receiveChar 11 = some { kind := .head, data := 1, error := some .parity } ∧
      (after (.markSeen 0x1007) s).le.resync = true ∧
      (after (.markSeen 0x1007) s).le.roundCount = 1 ∧
      (after (.markSeen 11) s).le.resync = false ∧ (after (.markSeen 11) s).le.blind = true ∧
      ((after (.markSeen 11) (s.onLe (fun x => { x with hunting := true }))).le.round).isSome = true ∧
      (after (.markSeen 3) (s.onLe (fun x => { x with hunting := true }))).le.round = none ∧
      (after (.markSeen (charBitsOf .vote 9)) s).le.roundCount = 1 := by decide


theorem test_mark_period_met :
    let r (edge : Nat) : Round := { Round.opened edge false 0 with stage := .opening }
    let s (edge : Nat) := joined.onLe (fun x =>
      { x with round := some (r edge), lastExpiry := some 20000, roundTimer := none })
    let l := localListen.onLe (fun x =>
      { x with round := some (r 5), lastListen := some 9, localRound := none })
    let on (c : Instr) (s : State) := (after c s).le.round.map Round.onPeriod
    let good := Instr.markSeen (charBitsOf .mark 9)
    pit.charTime = 26000 ∧ on good (s 33000) = some true ∧ on good (s 33001) = some false ∧
      on good (s 7000) = some true ∧ on good (s 6999) = some false ∧
      (after good (s 6999)).le.blind = true ∧ (after good (s 7000)).le.blind = false ∧
      on good l = some true ∧ (after good l).le.roundCount = 0 ∧
      (after good l).le.listenTimer = some (5 + pit.roundTime) ∧
      (after good l).le.roundTimer = some 1000 ∧
      (after (.markSeen (charBitsOf .vote 9)) (s 7000)).le.blind = true ∧
      (after (.markSeen (charBitsOf .vote 9)) (s 7000)).le.roundTimer = some (7000 + pit.roundTime) := by
  decide

theorem test_vote_start_met :
    let s := inRound .marked joined
    let l := inLocalRound .opening isolated
    s.image = some pit ∧ s.le.localRunning = false ∧ s.le.round = some (roundAt .marked) ∧
      s.le.breakDriving = none ∧ (after .voteFieldStart s).le.drive.length = 4 ∧
      l.image = some pit ∧ l.le.localRunning = true ∧
      l.le.localRound = some { edge := 0, stage := .opening } := by decide

theorem test_posts_met :
    let s := (inRound .marked joined).onSpu (fun u => { u with dissent := true })
    let b := s.onCke (fun k => { k with beatPosted := true })
    Posts b { Contributions.clear with dissent := true, beat := true } ∧
      (after .voteFieldStart b).le.sampled =
        { Contributions.clear with dissent := true, beat := true } := by
  unfold Posts; decide

theorem test_characters_spelt :
    charBitsOf .mark 0x00 = 0b0000000000111 ∧ charBitsOf .vote 0xFF = 0b0011111111001 ∧
      charBitsOf .head 0x20 = 0b0100100000011 ∧ charBitsOf .body 0x01 = 0b0100000001101 := by decide

theorem test_owners_met :
    stationsOf 0b101001 = [0, 3, 5] ∧ slotOwners 0b101001 1 = [0, 3, 5] ∧
      slotOwners 0b1000 255 = [3, 3, 3] := by decide

/-- A clean round at a station, with V0 given. -/
def cleanRound (s : State) : State := inRound .voting s

theorem test_clean_met : CleanRound (roundAt .voting) (cleanRound joined) 0x7F 8 0 0 (votes 0x7F) := by
  refine ⟨?_, ?_, ?_, ?_, ?_, ?_, ?_, ?_⟩ <;> decide

theorem test_clean_state_met :
    (cleanRound joined).image = some pit ∧ (cleanRound joined).le.state = .joined ∧
      (cleanRound joined).le.localRunning = false := by decide


theorem test_clean_read_back_met :
    let r : Round := { roundAt .voting with votesDriven := votes 0 }
    let s (n : Nat) := joined.onLe (fun x => { x with round := some r, readBackRun := n })
    let t (d : Byte) (n : Nat) :=
      (after (.voteFieldComplete (vote 0) (vote d) (vote 0) (vote 0)) (s n)).le
    r.drove = true ∧ r.failsReadBack [vote 0, vote 0, vote 0, vote 0] = true ∧
      CleanRound r (s 1) 0 0 0 0 [vote 0, vote 0, vote 0, vote 0] ∧
      (t 0 1).readBackRun = 2 ∧ (t 0 1).state = .joined ∧ (t 0 1).blind = false ∧
      (t 8 2).readBackRun = 0 ∧ (t 0 2).state = .isolated := by
  refine ⟨by decide, by decide, ⟨rfl, rfl, rfl, rfl, rfl, rfl, rfl, fun _ _ _ => by decide⟩, ?_⟩
  decide

theorem test_reference_met :
    let ref (d1 : Byte) :=
      (after (.voteFieldComplete (vote 0) (vote d1) (vote 0) (vote 0)) (cleanRound joined)).le.beatSource
    pit.ranking = [3, 5] ∧ (presenceMap 32 0 0).getLsbD 3 = false ∧
      (presenceMap 33 0 0).getLsbD 0 = true ∧ presenceMap 0 0 0 = 0 ∧ ref 40 = some 3 ∧
      ref 33 = some 5 ∧ ref 6 = some 1 ∧ ref 0 = none := by decide

theorem test_blind_met :
    let r : Round := { roundAt .voting with markGood := false }
    let s := joined.onLe (fun x => { x with round := some r })
    s.image = some pit ∧ s.le.round = some r ∧ r.stage = .voting ∧ r.markGood = false ∧
      s.le.sampled.beat = false ∧ r.failsReadBack [0, 0, 0, 0] = false ∧
      s.con.together = [] := by decide

theorem test_blind_causes_met :
    let r := roundAt .voting
    let s := cleanRound joined
    BlindRound { r with onPeriod := false } s (votes 0) ∧ BlindRound r s (votes 0x80) ∧
      BlindRound r (s.onLe (fun x => { x with resync := true })) (votes 0) ∧
      BlindRound r s [breakBits, vote 0, vote 0, vote 0] := by
  refine ⟨.inr (.inl rfl), .inr (.inr (.inr (.inr (by decide)))), .inr (.inr (.inl rfl)),
    .inr (.inr (.inr (.inl ⟨breakBits, by decide, by decide⟩)))⟩

theorem test_blind_beat_met :
    let r : Round := { roundAt .voting with markGood := false, votesDriven := votes 8 }
    let s := (inShow .run 1 joined).onLe (fun x =>
      { x with round := some r, sampled := { Contributions.clear with beat := true } })
    let t := after (.voteFieldComplete (vote 8) (vote 8) (vote 0) (vote 0)) s
    r.failsReadBack (votes 8) = false ∧ s.cke.part = some click ∧ s.cke.launch = false ∧
      s.cke.armedTarget = none ∧ s.cke.vamp = none ∧ s.cke.compare = none ∧ t.cke.beat = 2 ∧
      t.le.owners = [] := by decide

theorem test_third_failure_met :
    let r : Round := { roundAt .voting with votesDriven := votes 1 }
    let s := joined.onLe (fun x => { x with round := some r, readBackRun := 2 })
    s.image = some pit ∧ s.le.state = .joined ∧ s.le.localRunning = false ∧
      s.le.round = some r ∧ r.drove = true ∧ r.failsReadBack [0, 0, 0, 0] = true ∧
      s.le.readBackRun = 2 := by decide

theorem test_third_failure_blind_met :
    let r : Round := { roundAt .voting with votesDriven := votes 1, markGood := false }
    let s := (joined.onLe (fun x => { x with
      round := some r, readBackRun := 2, queue := [Entry.fresh (.camera none)] })).onSpu
        (fun u => { u with proposal := some (.call
          { proposer := 3, call := { base := 0, target := 1, downbeat := false }, patience := 1 }) })
    let t := after (.voteFieldComplete 0 0 0 0) s
    s.clickRuns = false ∧ s.con.together = [] ∧ t.le.queue = [] ∧
      t.con.notices.map Notice.bytes = [[11, 0, 0, 0, 3, 1, 1]] ∧ t.spu.proposal = none ∧
      t.le.roundTimer = some (5 * pit.charTime + pit.roundTime) := by decide

theorem test_second_clean_met :
    let s := (cleanRound listening).onLe (fun x => { x with cleanRun := 1 })
    (cleanRound listening).image = some pit ∧ (cleanRound listening).le.state = .listen ∧
      (cleanRound listening).le.cleanRun = 0 ∧ 1 ≤ s.le.cleanRun ∧
      (after (.voteFieldComplete (vote 0) (vote 8) (vote 0) (vote 0)) s).le.state = .joined ∧
      s.le.round = some (roundAt .voting) := by decide

theorem test_second_clean_local_met :
    let s := cleanRound localListen
    let z := s.onLe (fun x => { x with cleanRun := 1, owners := [3, 3, 3] })
    let t := after (.voteFieldComplete (vote 0) (vote 0) (vote 0) (vote 0))
    s.le.state = .listen ∧ s.le.localRunning = true ∧ s.con.together = [] ∧
      (t s).le.state = .listen ∧ (t s).le.cleanRun = 1 ∧ (t z).le.state = .joined ∧
      (t z).le.localRunning = false ∧ (t z).le.round = none ∧ (t z).le.owners = [3, 3, 3] ∧
      (t z).le.roundTimer = some pit.roundTime ∧
      (t z).con.notices.map Notice.bytes = [[11, 0, 0, 0, 3, 2, 1]] := by decide

/-! ## The vote -/

theorem test_vote_stops :
    let s := cleanRound (inShow .run 1 joined)
    s.spu.showState = .run ∧
      (after (.voteFieldComplete (vote 1) (vote 8) (vote 0) (vote 0)) s).spu.showState = .stopped := by
  decide

theorem test_vote_releases :
    let s := cleanRound (inShow .stopped 1 joined)
    let b := cleanRound (inShow .standby 1 joined)
    s.spu.showState = .stopped ∧ s.spu.ownStop = false ∧ b.spu.showState = .standby ∧
      (after (.voteFieldComplete (vote 0) (vote 8) (vote 0) (vote 0)) s).spu.showState = .standby := by
  decide


theorem test_vote_notices_met :
    let told (d : Byte) (s : State) :=
      (after (.voteFieldComplete (vote d) (vote 8) (vote 0) (vote 0)) (cleanRound s)).con.notices.map
        Notice.bytes
    let full := (inShow .stopped 1 joined).onCon (fun c => { c with
      notices := List.replicate 32
        { kind := .restart, round := 0, cue := 0, station := 3, detail1 := 1, detail2 := 0 } })
    told 1 (inShow .run 1 joined) = [[6, 0, 0, 1, 3, 4, 0]] ∧
      told 0 ((inShow .stopped 1 joined).onSpu (fun u => { u with origin := [5, 6] })) =
        [[7, 0, 0, 1, 3, 2, 0]] ∧ (told 0 full).length = 32 := by decide

theorem test_vote_hold_met :
    let sc (u : Purpose) := Scan.start 2 u { a := true, b := false }
    let w (u : Purpose) : QueuedScan := { target := 3, purpose := u, served := { a := false, b := true } }
    let s (x y : Purpose) := (cleanRound (inShow .run 1 joined)).onPsq (fun q =>
      { (q.setBuffer .a (.loading 2 .recall true)).setBuffer .b (.loading 3 .recall false) with
        scan := some (sc x), queued := some (w y), target := some { target := 3, kind := .call } })
    let t (x y : Purpose) :=
      (after (.voteFieldComplete (vote 1) (vote 8) (vote 0) (vote 0)) (s x y)).psq
    (t .call .call).hold = true ∧ (t .call .call).target = none ∧ (t .call .call).scan = none ∧
      (t .call .call).queued = none ∧ (t .call .call).ports.a.buffer = .empty ∧
      (t .call .call).ports.b.buffer = .empty ∧ (t .resume .call).scan = some (sc .resume) ∧
      (t .resume .call).ports.a.buffer = .loading 2 .recall true ∧
      (t .resume .call).ports.b.buffer = .empty ∧
      (t .call .resume).scan = some (Scan.start 3 .resume { a := false, b := true }) ∧
      (t .call .resume).ports.b.buffer = .loading 3 .recall false := by decide

theorem test_local_result_met :
    let s := inLocalRound .voting (inShow .stopped 1 isolated)
    s.image = some pit ∧ s.le.localRunning = true ∧ s.spu.ownStop = false ∧
      s.le.localRound = some { edge := 0, stage := .voting } ∧ s.le.sampled.stop = false ∧
      (after .localVoteFieldComplete s).spu.showState = .standby := by decide


theorem test_local_timer_met :
    let s (x : Shadow) := (inLocalRound .voting (inShow .run 1 isolated)).onCke
      (fun k => { k with shadow := x, beat := 4 })
    let t (x : Shadow) := (after .localVoteFieldComplete (s x)).cke
    (s .lapsed).cke.part ≠ none ∧ pit.isFree 1 = false ∧ (s .lapsed).le.sampled.beat = false ∧
      (s .lapsed).cke.beatTimer = none ∧ 5 * pit.charTime = 130000 ∧
      (t (.running 700)).beatTimer = some { pending := 700, last := none, reload := 1200 } ∧
      (t (.running 700)).beatPosted = false ∧ (t .lapsed).beatPosted = true ∧
      (t .lapsed).downbeatPosted = true ∧ (t .stopped).beatTimer =
        some { pending := 500130000, last := some 130000, reload := 1200 } := by decide

/-- Both ports staged for a cue, so that a commit to it posts no PATCH-LATE. -/
def stagedFor (c : Nat) (s : State) : State :=
  s.onPsq (fun q => (q.setBuffer .a (.staged c .recall [0])).setBuffer .b (.staged c .recall [0]))

def heldCall (downbeat : Bool) (patience : Nat) : HeldCall :=
  { proposer := 3, call := { base := 1, target := 2, downbeat := downbeat }, patience := patience }

theorem test_call_decided_met :
    let s := (cleanRound (inShow .run 1 joined)).onSpu
      (fun u => { u with proposal := some (.call (heldCall false 1)) })
    let z := (cleanRound (inShow .run 1 joined)).onSpu
      (fun u => { u with proposal := some (.call (heldCall false 0)) })
    s.spu.showState = .run ∧ s.spu.proposal = some (.call (heldCall false 1)) ∧
      (heldCall false 1).call.target ≠ s.spu.cue ∧
      (after (.voteFieldComplete (vote 2) (vote 8) (vote 0) (vote 0)) s).spu.cue = 1 ∧
      (after (.voteFieldComplete (vote 2) (vote 8) (vote 0) (vote 0)) z).spu.late = true ∧
      pit.roles.videoCritical = false := by decide


theorem test_joining_video_stop_met :
    let s (l : LineState) (n : Nat) (i : Image) :=
      (({ (cleanRound (inShow .run 1 (atLine i l))) with image := some i } : State).onLe (fun x =>
        { x with cleanRun := n, readBackRun := 2 })).onSpu
      (fun u => { u with proposal := some (.call { heldCall false 1 with
        call := { base := 1, target := 3, downbeat := false } }) })
    let t (l : LineState) (n : Nat) :=
      after (.voteFieldComplete (vote 0) (vote 8) (vote 0) (vote 0)) (s l n criticalPit)
    let halt := [Entry.fresh (.halt { reason := .video, detail := 0 })]
    (s .listen 1 criticalPit).vsl.live = none ∧ criticalPit.isFree 1 = false ∧
      criticalPit.isFree 3 = true ∧ (s .listen 1 criticalPit).le.queue = [] ∧
      (t .listen 1).le.state = .joined ∧ (t .listen 1).le.breakPending = false ∧
      (t .listen 1).le.queue = halt ∧ (t .listen 1).spu.ownStop = true ∧
      (t .listen 1).spu.showState = .stopped ∧ (t .listen 1).spu.cue = 3 ∧
      (t .listen 1).psq.hold = true ∧ (t .joined 0).le.state = .joined ∧
      (t .joined 0).le.breakPending = true ∧ (t .joined 0).le.queue = halt := by
  decide

theorem test_failing_video_stop_met :
    let s := (({ (cleanRound (inShow .run 1 (atLine criticalPit .joined))) with
        image := some criticalPit } : State).onLe (fun x => { x with
        readBackRun := 2, round := some { roundAt .voting with votesDriven := votes 0 } })).onSpu
      (fun u => { u with proposal := some (.call { heldCall false 1 with
        call := { base := 1, target := 3, downbeat := false } }) })
    let t := after (.voteFieldComplete (vote 0) (vote 0) (vote 0) (vote 0)) s
    t.le.state = .isolated ∧ t.spu.ownStop = true ∧ t.spu.showState = .stopped ∧ t.le.queue = [] ∧
      t.le.breakPending = false := by decide

theorem test_call_notices_and_timer_met :
    let s (n : Nat) := (stagedFor 2 (cleanRound (inShow .run 1 joined))).onSpu
      (fun u => { u with proposal := some (.call (heldCall false n)) })
    let free := (cleanRound (inShow .preshow 0 joined)).onSpu
      (fun u => { u with proposal := some (.call (heldCall false 1)) })
    let t (d p : Byte) := after (.voteFieldComplete (vote d) (vote p) (vote 0) (vote 0))
    let told (s : State) (x : List Byte) := x ∈ s.con.notices.map Notice.bytes
    told (t 4 8 (s 1)) [5, 0, 0, 1, 3, 1, 0] ∧ told (t 0 8 (s 1)) [2, 0, 0, 2, 3, 1, 0] ∧
      told (t 2 8 (s 0)) [3, 0, 0, 2, 3, 1, 0] ∧ pit.isFree 2 = false ∧ free.cke.beatTimer = none ∧
      (t 0 8 free).cke.beatTimer =
        some { pending := 500130000, last := some 130000, reload := 1200 } ∧
      (t 0 8 free).cke.beatPosted = true ∧ (t 0 8 free).cke.downbeatPosted = true ∧
      (t 0 32 free).cke.beatTimer = none := by decide

theorem test_call_arms_met :
    let s := (cleanRound (inShow .run 1 joined)).onSpu
      (fun u => { u with proposal := some (.call (heldCall true 1)) })
    s.image = some pit ∧ pit.isFree s.spu.cue = false ∧
      (after (.voteFieldComplete (vote 0) (vote 8) (vote 0) (vote 0)) s).cke.armedTarget = some 2 := by
  decide

theorem test_first_commit_met :
    let h : HeldCall :=
      { proposer := 3, call := { base := 0, target := 1, downbeat := true }, patience := 1 }
    let s := (cleanRound (inShow .preshow 0 joined)).onSpu
      (fun u => { u with proposal := some (.call h) })
    let t := after (.voteFieldComplete (vote 0) (vote 8) (vote 0) (vote 0)) s
    s.spu.showState = .preshow ∧ pit.isFree s.spu.cue = true ∧ h.call.target ≠ s.spu.cue ∧
      t.spu.showState = .run ∧ t.spu.cue = 1 ∧ t.cke.launch = true ∧
      (after (.voteFieldComplete (vote 4) (vote 8) (vote 0) (vote 0)) s).spu.showState = .preshow := by
  decide

theorem test_observed_met :
    let o (target : Nat) (downbeat : Bool) (patience : Nat) := (cleanRound (inShow .run 1 joined)).onSpu
      (fun u => { u with
        suspect := true
        observed := some { proposer := 3, patience := patience,
                           call := { base := 0, target := target, downbeat := downbeat } } })
    let t (d : Byte) := after (.voteFieldComplete (vote d) (vote 1) (vote 0) (vote 0))
    let near (s : State) := s.spu.cue = 1 ∧ s.spu.observed = none ∧ s.spu.armed = none
    pit.reference (presenceMap 1 0 0) ≠ some pit.station ∧ (o 2 false 1).spu.proposal = none ∧
      (t 4 (o 2 false 1)).con.notices.map Notice.bytes = [[5, 0, 0, 1, 3, 1, 0]] ∧
      (t 4 (o 2 false 1)).spu.observed = none ∧
      (t 2 (o 2 false 1)).spu.observed.map HeldCall.patience = some 0 ∧
      near (t 0 (o 4 true 1)) ∧ (t 0 (o 4 true 1)).spu.suspect = true ∧ near (t 0 (o 0 true 1)) ∧
      near (t 0 (o 1 true 1)) ∧ (t 0 (o 1 true 1)).spu.suspect = false ∧
      (t 2 (o 2 false 0)).spu.cue = 2 ∧ (t 2 (o 2 false 0)).spu.late = true ∧
      (t 2 (o 2 false 0)).spu.suspect = false ∧ (t 0 (o 2 true 1)).cke.armedTarget = some 2 ∧
      ((t 0 (o 2 true 1)).spu.armed.map Armed.observed) = some true := by decide

def heldResume (patience : Nat) : HeldResume :=
  { proposer := 3,
    resume := { cue := 2, bar := 10, countIn := 1,
                mask := { tempo := true, camera := false, vamp := true } },
    patience := patience }

theorem test_resume_decided_met :
    let s := (cleanRound (inShow .standby 1 joined)).onSpu
      (fun u => { u with proposal := some (.resume (heldResume 1)) })
    let z := (cleanRound (inShow .standby 1 joined)).onSpu
      (fun u => { u with proposal := some (.resume (heldResume 0)) })
    s.spu.showState = .standby ∧ s.spu.proposal = some (.resume (heldResume 1)) ∧
      (after (.voteFieldComplete (vote 0) (vote 8) (vote 0) (vote 0)) s).spu.showState = .countin ∧
      (after (.voteFieldComplete (vote 2) (vote 8) (vote 0) (vote 0)) z).spu.proposal = none := by
  decide


theorem test_resume_notices_and_timer_met :
    let s (n : Nat) := (stagedFor 2 (cleanRound (inShow .standby 1 joined))).onSpu
      (fun u => { u with proposal := some (.resume (heldResume n)) })
    let t (d p : Byte) := after (.voteFieldComplete (vote d) (vote p) (vote 0) (vote 0))
    let told (s : State) (x : List Byte) := x ∈ s.con.notices.map Notice.bytes
    told (t 4 8 (s 1)) [8, 0, 0, 1, 3, 2, 0] ∧ told (t 2 8 (s 0)) [9, 0, 0, 1, 3, 0, 0] ∧
      told (t 0 8 (s 1)) [8, 0, 0, 2, 3, 1, 1] ∧
      (t 0 8 (s 1)).spu.restart = some { bar := 10, pass := none } ∧
      (t 0 8 (s 1)).cke.beatPosted = true ∧ (t 0 8 (s 1)).cke.downbeatPosted = true ∧
      (t 0 32 (s 1)).cke.beatTimer = none := by decide

def vampClick : ClickPart := { click with vamp := some { start := 10, length := 4, repeats := 3 } }

/-- The pit with a vamp in cue 2. -/
def vampPit : Image :=
  { pit with cues := [cueOf 1 false none, cueOf 1 true (some click), cueOf 9 true (some vampClick),
      cueOf 20 true none] }

def stopSnapshot : Snapshot :=
  { cue := 2, bar := 13, beat := 2, vamp := some 2, tempo := 900, tempoOverride := some 900,
    cameraOverride := some .wide }

theorem test_resume_restores_met :
    let held (cue : Nat) : HeldResume :=
      { proposer := 3, patience := 1,
        resume := { cue := cue, bar := 0, countIn := 0,
                    mask := { tempo := true, camera := true, vamp := true } } }
    let s (cue : Nat) := (cleanRound (inShow .standby 1 (atLine vampPit .joined))).onSpu (fun u =>
      { u with proposal := some (.resume (held cue)), snapshot := some stopSnapshot })
    let t (cue : Nat) := after (.voteFieldComplete (vote 0) (vote 8) (vote 0) (vote 0)) (s cue)
    (t 2).cke.bar = 13 ∧ (t 2).cke.tempo = 900 ∧ (t 2).cke.override = some 900 ∧
      (t 2).cke.resume = some (some 2) ∧ (t 2).vsl.override = some .wide ∧
      (t 2).spu.showState = .run ∧ vampPit.isFree 3 = true ∧ (t 3).cke.tempo = 1200 ∧
      (t 3).spu.cue = 3 ∧ (t 1).cke.override = none ∧ (t 1).cke.resume = some none := by decide

theorem test_beat_counted_met :
    let s := cleanRound (inShow .run 1 joined)
    s.spu.proposal = none ∧ s.spu.observed = none ∧ s.cke.part = some click ∧
      s.cke.launch = false ∧ s.cke.armedTarget = none ∧ s.cke.vamp = none ∧ click.vamp = none ∧
      s.cke.compare = none ∧ s.cke.countIn = none ∧
      (after (.voteFieldComplete (vote 8) (vote 8) (vote 0) (vote 0)) s).cke.beat = 2 ∧
      (after (.voteFieldComplete (vote 24) (vote 8) (vote 0) (vote 0)) s).cke.bar = 2 := by decide

/-- A click record in cue 2 of the vamp pit, at a bar. -/
def clickAt (bar : Nat) (vamp : Option VampState) : Cke :=
  { Cke.cold with part := some vampClick, bar := bar, beat := 4, vamp := vamp }

def downbeat (k : Cke) (run : Bool) : Cke × Reports := k.count vampPit run true 0 0

theorem test_placed_launch_met :
    let k := { clickAt 10 none with launch := true, beat := 1 }
    let c := { k with countIn := some { bars := 2, bar := 0 } }
    k.part = some vampClick ∧ k.armedTarget = none ∧ k.resume = none ∧
      (k.count vampPit true false 0 0).2.launch = true ∧
      (downbeat k true).1.vamp = some { pass := 1, left := some 3 } ∧
      (downbeat { k with resume := some (some 2) } true).1.vamp =
        some { pass := 2, left := some 2 } ∧
      (downbeat c false).1.countIn = some { bars := 2, bar := 1 } := by decide

theorem test_placed_bars_met :
    let c (n : Nat) := { clickAt 12 none with countIn := some { bars := 2, bar := n } }
    (downbeat (c 1) false).1.countIn = some { bars := 2, bar := 2 } ∧
      (downbeat (c 2) false).2.countIn = true ∧ (downbeat (c 2) false).1.bar = 12 ∧
      (downbeat (c 2) false).1.vamp = some { pass := 1, left := some 3 } ∧
      (downbeat (clickAt 13 (some { pass := 1, left := none })) true).1.bar = 10 ∧
      (downbeat (clickAt 13 (some { pass := 1, left := some 2 })) true).1.vamp =
        some { pass := 2, left := some 1 } ∧
      (downbeat (clickAt 13 (some { pass := 2, left := some 1 })) true).1.bar = 14 ∧
      (downbeat (clickAt 9 none) true).1.vamp = some { pass := 1, left := some 3 } ∧
      (downbeat (clickAt 9999 none) true).1.bar = 9999 ∧
      (downbeat { clickAt 10 none with compare := some { bar := 11, beat := 1, cue := 2 } } true).2.matched =
        some 2 := by decide

theorem test_steps_and_sounds_met :
    let m : RampState := { start := 1200, target := 600, length := 2, step := 0 }
    let bt : BeatTimer := { pending := 9, last := some 5, reload := 1200 }
    let k := { clickAt 10 none with ramp := some m, dueSampled := true, beatTimer := some bt }
    (downbeat k true).1.tempo = 900 ∧ (downbeat k true).1.ramp = some { m with step := 1 } ∧
      (downbeat k true).1.beatTimer = some { bt with pending := 5 + 666600000 } ∧
      (downbeat { k with ramp := some { m with step := 1 } } true).1.ramp = none ∧
      (downbeat k false).1.tempo = 1200 ∧ (downbeat k false).1.beatTimer = some bt ∧
      (downbeat k true).1.subOwed = 1 ∧ (downbeat k true).1.lanes.l0.pulses = 1 ∧
      (downbeat k true).1.lanes.l1.pulses = 0 ∧
      (downbeat k false).1.lanes.l0.voice = .count := by decide

theorem test_reports_armed_met :
    let a : Armed :=
      { proposer := 3, call := { base := 1, target := 2, downbeat := true }, forced := true,
        observed := false }
    let s := ((cleanRound (inShow .run 1 joined)).onSpu (fun u => { u with armed := some a })).onCke
      (fun k => { k with armedTarget := some 2 })
    let t := after (.voteFieldComplete (vote 24) (vote 8) (vote 0) (vote 0)) s
    s.spu.proposal = none ∧ s.cke.vamp = none ∧ pit.autoGoOf 2 = none ∧ t.spu.cue = 2 ∧
      t.spu.late = true ∧ t.cke.bar = 9 := by decide

theorem test_reports_countIn_met :
    let s (n : Nat) := (cleanRound (inShow .countin 1 joined)).onCke
      (fun k => { k with countIn := some { bars := 2, bar := n } })
    let t (n : Nat) := after (.voteFieldComplete (vote 24) (vote 8) (vote 0) (vote 0)) (s n)
    (s 2).cke.launch = false ∧ (s 2).cke.compare = none ∧ (t 2).spu.showState = .run ∧
      (t 1).spu.showState = .countin ∧ (t 1).cke.countIn = some { bars := 2, bar := 2 } := by
  decide

/-- A pit that ends with a click cue. -/
def clickEnd : Image :=
  { pit with cues := [cueOf 1 false none, cueOf 1 true (some click)] }

theorem test_reports_match_met :
    let point : ComparePoint := { bar := 1, beat := 2, cue := 1 }
    let s (img : Image) := (cleanRound (inShow .run 1 (atLine img .joined))).onCke
      (fun k => { k with part := some click, compare := some point })
    let c := (s pit).onSpu (fun u => { u with proposal := some (.call (heldCall false 1)) })
    let t (d : Byte) := after (.voteFieldComplete (vote d) (vote 8) (vote 0) (vote 0))
    (s pit).cke.bar = 1 ∧ (s pit).cke.beat = 1 ∧ (s pit).spu.cue + 1 < pit.cues.length ∧
      clickEnd.cues.length ≤ (s clickEnd).spu.cue + 1 ∧ (t 8 (s pit)).spu.cue = 2 ∧
      (t 10 c).spu.cue = 2 ∧ (t 10 c).spu.proposal = none ∧ (t 8 (s clickEnd)).spu.cue = 1 := by
  decide


theorem test_reports_notices_met :
    let a : Armed :=
      { proposer := 5, call := { base := 1, target := 2, downbeat := true }, forced := true,
        observed := false }
    let s := ((stagedFor 2 (cleanRound (inShow .run 1 joined))).onSpu
      (fun u => { u with armed := some a })).onCke (fun k => { k with armedTarget := some 2 })
    let m := ((cleanRound (inShow .run 1 joined)).onSpu
      (fun u => { u with proposal := some (.call (heldCall false 1)) })).onCke
      (fun k => { k with compare := some { bar := 1, beat := 2, cue := 1 } })
    let t (d : Byte) := after (.voteFieldComplete (vote d) (vote 8) (vote 0) (vote 0))
    let told (s : State) (x : List Byte) := x ∈ s.con.notices.map Notice.bytes
    told (t 24 s) [3, 0, 0, 2, 5, 2, 0] ∧ (t 10 m).spu.cue = 2 := by decide

/-! ## Faults, breaks, slots, the decoder -/

theorem test_line_fault_met :
    joined.image = some pit ∧ listening.le.state = .listen ∧ joined.con.together = [] ∧
      localListen.con.together = [] ∧ (after (.lineFault 9) joined).le.state = .isolated ∧
      (after (.lineFault 9) localListen).le.listenTimer = none := by decide

theorem test_break_met :
    let s := (inRound .judged joined).onLe (fun x => { x with breakPending := true })
    let b := s.onLe (fun x => { x with send := some { slot := 0, length := 10, queued := false } })
    let v := (inRound .voting joined).onLe (fun x =>
      { x with breakPending := true, drive := votes 0 })
    s.image = some pit ∧ s.le.state = .joined ∧ s.le.breakPending = true ∧ s.le.send = none ∧
      ({ slot := 0, length := 10, queued := false } : Send).covers 6 = true ∧
      ({ slot := 0, length := 10, queued := false } : Send).covers 16 = false ∧
      (after (.breakStart 6 breakBits 7) s).le.breakDriving = none ∧
      (after (.breakStart 42 0 7) s).le.breakUntil = 7 + pit.charTime ∧
      (after (.breakStart 6 0 7) b).le.send = none ∧
      (after (.breakStart 5 0 7) v).le.drive = [vote 0, vote 8, vote 0, breakBits] := by decide

theorem test_break_seen_met :
    let s := inShow .run 1 joined
    let l := inShow .run 1 localListen
    s.image = some pit ∧ s.con.together = [] ∧ s.le.localRunning = false ∧
      s.spu.showState = .run ∧ s.spu.proposal = none ∧ s.spu.observed = none ∧
      s.spu.armed = none ∧ (after .breakSeen s).spu.showState = .stopped ∧
      (inShow .stopped 1 joined).spu.showState = .stopped ∧
      (after .breakSeen l).spu.showState = .run := by decide

theorem test_own_break_lasts :
    let s := (inShow .run 1 joined).onLe (fun x =>
      { x with breakDriving := some 8, breakUntil := 50, drive := [breakBits], driveFrom := 24 })
    let early := after (.breakSeen 49) s
    early.le.breakDriving = some 8 ∧ early.le.drive = [breakBits] ∧ early.now = 49 ∧
      (after (.stopPress true) early).le.breakPending = false ∧
      (after (.breakSeen 50) s).le.breakDriving = none ∧ (after (.breakSeen 50) s).le.drive = [] ∧
      (after (.stopPress true) (after (.breakSeen 50) s)).le.breakPending = true := by decide

theorem test_stop_request_instant :
    let s := (inShow .run 1 joined).onLe (fun x =>
      { x with breakDriving := some 8, breakUntil := 50, drive := [breakBits], driveFrom := 24 })
    (after (.stopPress true 49) s).le.breakPending = false ∧
      (after (.stopPress true 50) s).le.breakPending = true ∧
      (after (.safetyAssertion 49) s).le.breakPending = false ∧
      (after (.safetyAssertion 50) s).le.breakPending = true ∧
      (after (.consoleStop 4 49) s).le.breakPending = false ∧
      (after (.consoleStop 4 50) s).le.breakPending = true := by decide

theorem test_owner_met :
    let s := (inRound .judged joined).onLe (fun x => { x with owners := [3, 3, 3] })
    let q := s.onLe (fun x => { x with queue := [Entry.fresh (.camera none)] })
    s.image = some pit ∧ MaySend pit s.le (roundAt .judged) 0 ∧ s.le.queue = [] ∧
      MaySend pit q.le (roundAt .judged) 2 ∧ s.le.breakDriving = none ∧
      q.le.queue = [Entry.fresh (.camera none)] ∧
      ¬ MaySend pit (inRound .judged joined).le (roundAt .judged) 0 ∧
      (after (.talkSlotStart 0) s).le.send = some { slot := 0, length := 10, queued := false } ∧
      (after (.talkSlotStart 2) q).le.send = some { slot := 2, length := 2, queued := true } ∧
      (after (.talkSlotStart 0) (inRound .judged joined)).le.send = none := by
  unfold MaySend; decide

theorem test_send_end_met :
    let e : Entry := { message := .camera none, inFlight := true, renewed := false }
    let s := (inRound .judged joined).onLe (fun x =>
      { x with queue := [e], send := some { slot := 0, length := 2, queued := true } })
    s.image = some pit ∧ s.le.queue = e :: [] ∧ e.inFlight = true ∧
      (after .sendComplete s).le.queue = [] ∧ (after .failedSend s).le.clashCount = 1 := by decide

theorem test_local_slot_met :
    let f : HaltFields := { reason := .console, detail := 5 }
    let s := (inLocalRound .judged (inShow .stopped 1 isolated)).onLe
      (fun x => { x with queue := [Entry.fresh (.halt f)] })
    s.image = some pit ∧ s.le.localRound = some { edge := 0, stage := .judged } ∧
      s.con.together = [] ∧ pit.station ∉ s.spu.origin ∧ pit.station < 24 ∧
      (after (.localTalkSlotStart 0) s).spu.origin = [3] ∧
      (after (.localTalkSlotStart 2) (inLocalRound .judged isolated)).le.queue = [] := by decide

theorem test_local_heads_met :
    let q (m : Message) := (inLocalRound .judged isolated).onLe
      (fun x => { x with queue := [Entry.fresh m] })
    let t (m : Message) := after (.localTalkSlotStart 1) (q m)
    pit.isRanked pit.station = true ∧
      (t (.tempo { tempo := 3000, atOnce := false })).cke.tempo = 3000 ∧
      (t (.camera (some .wide))).vsl.desired = some .wide ∧
      (t (.camera none)).vsl.desired = some .front := by decide

def decoding (d : Decoder) : State := (inRound .judged joined).onLe (fun x => { x with decoder := d })

theorem test_decoder_met :
    (decoding .idle).image = some pit ∧ (decoding .idle).le.takesLine = true ∧
      (decoding .idle).le.resync = false ∧
      (after (.characterReceived 6 (charBitsOf .head 0x83)) (decoding .idle)).le.decoder =
        .assembling .halt 3 [] ∧
      (after (.characterReceived 6 (charBitsOf .head 0xE3)) (decoding .idle)).le.badCount = 1 ∧
      (after (.characterReceived 6 (charBitsOf .vote 0)) (decoding .idle)).le.shortCount = 1 ∧
      (after (.characterReceived 7 (charBitsOf .body 1))
        (decoding (.assembling .camera 3 []))).le.decoder = .done ∧
      (after (.characterReceived 7 0) (decoding (.assembling .halt 3 []))).le.shortCount = 1 ∧
      (after (.characterReceived 8 (charBitsOf .body 1)) (decoding .done)).le.badCount = 1 ∧
      (after (.characterReceived 6 breakBits) (decoding .idle)).le.decoder = .idle := by decide

theorem test_slot_end_met :
    (after (.talkSlotEnd 2) (decoding (.assembling .halt 3 []))).le.shortCount = 1 ∧
      (after (.talkSlotEnd 2) (decoding .idle)).le.round = none ∧
      (after .receiverResynchronised
        (joined.onLe (fun x => { x with resync := true }))).le.resync = false := by decide

theorem test_message_ranges_met :
    let f : TallyFields :=
      { showId := 65535, cue := 3, bar := 9999, beat := 16, pass := 255, showState := .countin,
        vampActive := true, late := true, suspect := true, camfail := true }
    let g : TallyFields := { f with bar := 1, beat := 1, pass := 0, vampActive := false }
    ((Message.tally f).raw 23).parse 4 = some (.tally f) ∧
      ((Message.tally g).raw 0).parse 4 = some (.tally g) ∧
      ((Message.tempo { tempo := 3000, atOnce := true }).raw 3).parse 4 =
        some (.tempo { tempo := 3000, atOnce := true }) := by decide

def receiving (sender : Nat) (m : Message) (s : State) : State :=
  (inRound .judged s).onLe (fun x =>
    { x with received := some (m.raw sender), decoder := .done, beatSource := some 5 })

theorem test_malformed_met :
    let raw : RawMessage := { kind := .halt, sender := 5, body := [4, 0] }
    let s := (inRound .judged joined).onLe (fun x => { x with received := some raw })
    s.le.received = some raw ∧ s.le.takesLine = true ∧ raw.parse pit.cueCount = none ∧
      (after .malformedMessage s).le.badCount = 1 ∧
      (after .malformedMessage (receiving 3 (.camera none) joined)).le.badCount = 1 := by decide

/-! ## Arrivals -/

theorem receiving_arrives (sender : Nat) (m : Message) (s : State) (h : s.le.state = .joined)
    (hs : sender ≠ pit.station) (hp : (m.raw sender).parse pit.cueCount = some m) :
    Arrives pit (receiving sender m s) sender m :=
  ⟨by simp [receiving, inRound, State.onLe, Le.takesLine, h], fun e => absurd e hs,
    m.raw sender, rfl, rfl, hp⟩

def tallyOf (x : ShowState) : TallyFields :=
  { showId := 7, cue := 2, bar := 9, beat := 3, pass := 0, showState := x, vampActive := false,
    late := false, suspect := false, camfail := false }

theorem test_tally_arrives (x : ShowState) (s : State) (h : s.le.state = .joined) :
    Arrives pit (receiving 5 (.tally (tallyOf x)) s) 5 (.tally (tallyOf x)) :=
  receiving_arrives _ _ s h (by decide) (by cases x <;> decide)

theorem test_tally_adopted_met :
    let s := receiving 5 (.tally (tallyOf .run)) (inShow .run 1 joined)
    s.image = some pit ∧ (5 : Nat) ≠ pit.station ∧ s.le.beatSource = some 5 ∧
      s.spu.showState = .run ∧ (tallyOf .run).cue ≠ s.spu.cue ∧
      (after .tallyArrival s).spu.cue = 2 ∧ (after .tallyArrival s).cke.beat = 3 := by decide

theorem test_tally_stop_states_met :
    let a := receiving 5 (.tally (tallyOf .stopped)) (inShow .run 1 joined)
    let b := receiving 5 (.tally (tallyOf .run)) (inShow .standby 1 joined)
    let c := receiving 5 (.tally (tallyOf .standby)) (inShow .stopped 1 joined)
    (after .tallyArrival a).spu.showState = .stopped ∧
      (after .tallyArrival b).spu.showState = .run ∧
      (after .tallyArrival c).spu.showState = .standby ∧ c.spu.ownStop = false := by decide


theorem test_tally_notices_met :
    let f := { tallyOf .stopped with cue := 0, bar := 1, beat := 1 }
    let p := (receiving 5 (.tally f) (inShow .preshow 0 joined)).onVsl (fun v =>
      { v with desired := some .front, table := [.wide, .wide, .wide, .wide] })
    let told (s : State) (x : List Byte) := x ∈ (after .tallyArrival s).con.notices.map Notice.bytes
    (after .tallyArrival p).vsl.desired = some .wide ∧ (after .tallyArrival p).vsl.camfail = true ∧
      (after .tallyArrival p).spu.cue = 0 ∧ told p [6, 0, 0, 0, 5, 5, 0] ∧
      told (receiving 5 (.tally (tallyOf .stopped)) (inShow .run 1 joined)) [6, 0, 0, 1, 5, 5, 0] ∧
      told (receiving 5 (.tally (tallyOf .run)) (stagedFor 2 (inShow .standby 1 joined))) [2, 0, 0, 2, 5, 4, 0] ∧
      told (receiving 5 (.tally (tallyOf .run)) (stagedFor 2 (inShow .run 1 joined))) [2, 0, 0, 2, 5, 4, 0] ∧
      told (receiving 5 (.tally (tallyOf .standby)) (inShow .stopped 1 joined))
        [7, 0, 0, 2, 3, 0, 1] := by decide

theorem test_tally_suspect_source_met :
    let s := ((receiving 5 (.tally (tallyOf .run)) (inShow .run 1 joined)).onLe
      (fun x => { x with beatSource := some 3 })).onSpu (fun u => { u with suspect := true })
    let t := after .tallyArrival s
    Heeds pit s 5 ∧ t.spu.cue = 2 ∧ t.spu.suspect = false ∧ t.cke.beat = 3 := by
  unfold Heeds; decide

theorem test_tally_beat_alone_met :
    let s (cue : Nat) := (receiving 5 (.tally (tallyOf .countin)) (inShow .countin cue joined)).onCke
      (fun k => { k with bar := 9 })
    let t := after .tallyArrival
    (tallyOf .countin).cue = (s 2).spu.cue ∧ (tallyOf .countin).bar = (s 2).shownBar pit ∧
      (tallyOf .countin).beat ≠ (s 2).shownBeat pit ∧ (t (s 2)).cke.beat = 3 ∧
      (t (s 2)).spu.showState = .countin ∧ (t (s 1)).spu = (s 1).spu := by decide

theorem test_reference_wait_met :
    let s (n : Nat) := (cleanRound joined).onSpu (fun u => { u with refWait := n })
    let t (d : Byte) (n : Nat) := (after (.voteFieldComplete (vote 0) (vote d) (vote 0) (vote 0)) (s n)).spu
    (s 0).spu.suspect = true ∧ pit.reference (presenceMap 8 0 0) = some 3 ∧
      presenceMap 8 0 0 = stationSet 3 ∧ presenceMap 40 0 0 ≠ stationSet 3 ∧
      (t 8 0).suspect = false ∧ (t 40 0).suspect = true ∧ (t 40 0).refWait = 1 ∧
      (t 40 7).suspect = false ∧ (t 40 7).refWait = 0 ∧ pit.reference (presenceMap 32 0 0) = some 5 ∧
      (t 32 5).refWait = 0 ∧ (t 32 5).suspect = true := by decide

theorem test_checks_met :
    let f : CallFields := { base := 0, target := 1, downbeat := false }
    let s := receiving 5 (.call f) joined
    let t := receiving 4 (.tally { tallyOf .run with showId := 8 }) joined
    s.con.together = [] ∧ pit.isCallerStation 5 = false ∧ pit.isRanked 4 = false ∧
      (after .callArrival s).con.notices.map Notice.bytes = [[14, 0, 0, 0, 5, 2, 0]] ∧
      t.le.mismatch.getLsbD 4 = false ∧ t.le.beatSource ≠ some 4 ∧
      t.le.beatSource ≠ some pit.station ∧
      (after .tallyArrival t).con.notices.map Notice.bytes = [[13, 0, 0, 0, 4, 0, 8]] := by decide

/-- A pit in which station 5 calls too. -/
def callers : Image := { pit with callers := 0b101000 }

def withCallers (s : State) : State := { s with image := some callers }

theorem test_call_arrives (f : CallFields) (h : ((Message.call f).raw 5).parse 4 = some (.call f))
    (s : State) (hs : s.le.state = .joined) :
    Arrives callers (withCallers (receiving 5 (.call f) s)) 5 (.call f) :=
  ⟨by simp [withCallers, receiving, inRound, State.onLe, Le.takesLine, hs],
    fun e => absurd e (by decide), (Message.call f).raw 5, rfl, rfl, h⟩

theorem test_call_judged_met :
    let f : CallFields := { base := 1, target := 2, downbeat := false }
    let s := withCallers (receiving 5 (.call f) (inShow .run 1 joined))
    let o := s.onSpu (fun u => { u with suspect := true })
    let b := (s.onLe (fun x => { x with beatSource := some 3 })).onSpu (fun u => { u with cue := 0 })
    callers.isCallerStation 5 = true ∧ s.spu.callWindow = none ∧ f.target < callers.cueCount ∧
      ((after .callArrival s).spu.proposal).isSome = true ∧
      ((after .callArrival o).spu.observed).isSome = true ∧
      (after .callArrival b).spu.dissent = true ∧
      (after .callArrival (s.onSpu (fun u => { u with showState := .countin }))).spu.dissent = true := by
  decide

theorem test_resume_judged_met :
    let f : ResumeFields := (heldResume 0).resume
    let s := withCallers (receiving 5 (.resume f) (inShow .standby 1 joined))
    let z := withCallers (receiving 5 (.resume { f with cue := 3 }) (inShow .standby 1 joined))
    callers.resumeSafe f.cue = true ∧ callers.startBar f.cue ≤ f.bar ∧
      f.bar ≤ callers.endBar f.cue ∧ s.spu.resumeWindow = none ∧ callers.resumeSafe 3 = false ∧
      ((after .resumeArrival s).spu.proposal).isSome = true ∧
      (after .resumeArrival z).spu.dissent = true := by decide


theorem test_target_handed_met :
    let q (b : Buffer) (hold : Bool) : Psq :=
      { Psq.cold.setBuffer .a b with hold := hold }
    let c (b : Buffer) (x : Nat) := (q b false).handTarget { target := x, kind := .call } 1
    let r (b : Buffer) (hold : Bool) := (q b hold).handTarget { target := 2, kind := .resume } 1
    (q .empty true).scan = none ∧ (q .empty true).queued = none ∧
      Suits (.staged 2 .delta [0]) { target := 2, kind := .call } ∧
      JoinsFor (.deferred 1 .delta [0]) { target := 2, kind := .resume } 1 true ∧
      (c (.staged 2 .delta [0]) 2).ports.a.buffer = .staged 2 .delta [0] ∧
      (c .empty 2).ports.a.buffer = .loading 2 (.delta 0 []) false ∧
      (c .empty 3).ports.a.buffer = .loading 3 .recall false ∧
      (c .empty 3).scan = some (Scan.start 3 .call { a := true, b := true }) ∧
      (c (.deferred 1 .delta [0]) 3).ports.a.buffer = .deferred 1 .delta [0] ∧
      (r (.deferred 1 .delta [0]) true).ports.a.buffer = .loading 2 .recall false ∧
      (r (.deferred 1 .delta [0]) false).ports.a.buffer = .deferred 1 .delta [0] ∧
      (r (.staged 2 .recall [0]) true).ports.a.buffer = .staged 2 .recall [0] ∧
      (r (.staged 2 .delta [0]) true).ports.a.buffer = .loading 2 .recall false := by
  refine ⟨rfl, rfl, .inl ⟨_, _, rfl, .inl rfl⟩, .inl ⟨rfl, rfl, rfl⟩, ?_⟩
  decide

theorem test_halt_met :
    let f : HaltFields := { reason := .safety, detail := 0 }
    let s := receiving 5 (.halt f) (inShow .run 1 joined)
    let p := receiving 5 (.halt f) (inShow .stopped 1 joined)
    let q := p.onSpu (fun u => { u with origin := [5] })
    s.con.together = [] ∧ s.spu.proposal = none ∧ s.spu.observed = none ∧ s.spu.armed = none ∧
      (after .haltArrival s).spu.origin = [5] ∧ 5 ∉ p.spu.origin ∧ 5 ∈ q.spu.origin ∧
      (after .haltArrival q).con.notices = [] := by decide

theorem test_tempo_camera_met :
    let s := receiving 5 (.tempo { tempo := 900, atOnce := true }) (inShow .run 1 joined)
    let c := receiving 5 (.camera (some .wide)) (inShow .run 1 joined)
    pit.isRanked 5 = true ∧ s.con.together = [] ∧ (after .tempoArrival s).cke.override = some 900 ∧
      (after .cameraArrival c).vsl.desired = some .wide ∧
      c.vsl.desired ≠ some .wide ∧ (after .cameraArrival c).vsl.pendingSwitch = none := by decide

theorem test_rechosen_met :
    let m : Monitor := { lock := .locked, misses := 0, expired := false, window := some 5 }
    let c := (receiving 5 (.camera (some .wide)) (inShow .run 1 joined)).onVsl (fun v =>
      { v with monitors := { v.monitors with wide := m }, live := some .front })
    let d := (receiving 5 (.camera (some .lowlight)) (inShow .run 1 joined)).onVsl (fun v =>
      { v with monitors := { v.monitors with wide := m }, live := none })
    (after .cameraArrival c).vsl.pendingSwitch = some .wide ∧
      (after .cameraArrival d).vsl.pendingSwitch = some .wide ∧
      (after .cameraArrival c).vsl.camfail = true := by decide

/-! ## The patch ports -/

def loading (next : Nat) (due : Bool) : State :=
  joined.onPsq (fun q => q.setBuffer .a (.loading 1 (.delta next []) due))

theorem test_load_step_met :
    (pit.patchOf 1)[0]? = some 0 ∧ pit.pool[0]? = some (action .a 0) ∧
      (pit.patchOf 1).length = 2 ∧
      ((after (.loadStep .a 9) (loading 0 false)).psq.ports.a.buffer) =
        .loading 1 (.delta 1 [0]) false ∧
      ((after (.loadStep .a 9) (loading 1 false)).psq.ports.a.buffer) = .staged 1 .delta [] := by
  decide

theorem test_load_due_met :
    let l := joined.onPsq (fun q => q.setBuffer .a (.loading 1 (.delta 1 [0]) true))
    let h := l.onPsq (fun q => { q with hold := true })
    let e := joined.onPsq (fun q => q.setBuffer .a (.loading 2 (.delta 0 []) false))
    (pit.patchOf 1).length = 2 ∧ (after (.loadStep .a 9) l).psq.ports.a.state = .sending ∧
      (after (.loadStep .a 9) l).psq.ports.a.list = [0] ∧
      (after (.loadStep .a 9) h).psq.ports.a.buffer = .deferred 1 .delta [0] ∧
      pit.patchOf 2 = [] ∧
      (after (.loadStep .a 9) e).psq.ports.a.buffer = .staged 2 .delta [] := by decide

theorem test_scan_step_met :
    let sc (c : Nat) := Scan.start c .call { a := true, b := false }
    let s (c : Nat) := (joined.onPsq (fun q => q.setBuffer .a (.loading 2 .recall false))).onPsq
      (fun q => { q with scan := some (sc c) })
    1 < (sc 2).cursor ∧ allFound ((sc 2).examine pit) = false ∧ (sc 1).cursor ≤ 1 ∧
      (s 1).psq.queued = none ∧
      (after (.scanStep 9) (s 1)).psq.ports.a.buffer = .staged 2 .recall [0] := by decide

theorem test_scan_end_met :
    let w : QueuedScan := { target := 3, purpose := .resume, served := { a := false, b := true } }
    let s (due hold : Bool) := (joined.onPsq (fun q => q.setBuffer .a (.loading 1 .recall due))).onPsq
      (fun q => { q with
        scan := some (Scan.start 1 .call { a := true, b := false }), queued := some w, hold := hold })
    let t (due hold : Bool) := (after (.scanStep 9) (s due hold)).psq
    (t false false).scan = some (Scan.start 3 .resume { a := false, b := true }) ∧
      (t false false).queued = none ∧ (t true false).ports.a.state = .sending ∧
      (t true false).ports.a.list = [0] ∧
      (t true true).ports.a.buffer = .deferred 1 .recall [0] := by decide


theorem test_scan_end_busy_met :
    let w : QueuedScan := { target := 3, purpose := .resume, served := { a := false, b := true } }
    let s (st : PortState) (t : Option PendingTarget) :=
      (joined.onPsq (fun q => q.setBuffer .a (.loading 1 .recall true))).onPsq (fun q =>
        { (q.onPort .a (fun r => { r with state := st })) with
          scan := some (Scan.start 1 .call { a := true, b := false }), queued := some w, target := t })
    let u (st : PortState) (t : Option PendingTarget) := (after (.scanStep 9) (s st t)).psq
    (u .settling none).ports.a.buffer = .deferred 1 .recall [0] ∧
      (u .settling none).scan = some (Scan.start 3 .resume { a := false, b := true }) ∧
      (u .idle none).ports.a.state = .sending ∧ (u .idle none).queued = none ∧
      (u .idle none).scan = some (Scan.start 3 .resume { a := false, b := true }) ∧
      (u .sending (some { target := 2, kind := .call })).queued = none := by decide

theorem test_join_recall_met :
    let a : Ports Bool := { a := true, b := false }
    let q (due : Bool) (w : Option QueuedScan) : Psq :=
      { Psq.cold.setBuffer .a (.loading 2 .recall due) with
        scan := some (Scan.start 2 .call a), queued := w }
    let j (due : Bool) (w : Option QueuedScan) (x : Nat) := (q due w).joinRecall .b x .resume false
    let w (x : Nat) : QueuedScan := { target := x, purpose := .call, served := a }
    (j true none 2).scan = some { Scan.start 2 .resume a with served := { a := true, b := true } } ∧
      (j false none 3).scan = some (Scan.start 3 .resume { a := false, b := true }) ∧
      (j false none 3).ports.a.buffer = .empty ∧ (j true none 3).scan = some (Scan.start 2 .call a) ∧
      (j true none 3).queued =
        some { target := 3, purpose := .resume, served := { a := false, b := true } } ∧
      (j true (some (w 3)) 3).queued =
        some { target := 3, purpose := .resume, served := { a := true, b := true } } ∧
      (j true (some (w 4)) 3).ports.a.buffer = .empty ∧
      ((q true none).joinRecall .b 3 .call true).scan =
        some (Scan.start 3 .call { a := false, b := true }) := by decide

theorem test_examine_met :
    let sc := Scan.start 1 .call { a := true, b := false }
    (sc.found.get .b)[15]? = some none ∧ ((sc.examine pit).get .b)[15]? = some (some 1) ∧
      ((sc.examine pit).get .a)[15]? = some none := by decide

theorem test_fire_rows_met :
    let r (st : PortState) (b : Buffer) : PortRec := { PortRec.cold with state := st, buffer := b }
    fireRow (r .idle (.deferred 2 .delta [])) .ordinary 2 = .unchanged ∧
      fireRow (r .idle (.loading 2 .recall true)) .ordinary 3 = .replaces ∧
      fireRow (r .settling (.staged 2 .recall [1])) .recall 2 = .defers .recall [1] ∧
      fireRow (r .held (.staged 2 .delta [1])) .ordinary 2 = .fires .delta [1] ∧
      fireRow (r .idle (.staged 2 .delta [1])) .recall 2 = .joins ∧
      fireRow (r .idle (.loading 2 .recall false)) .recall 2 = .marksDue ∧
      fireRow (r .idle (.loading 2 (.delta 0 []) false)) .recall 2 = .joins ∧
      fireRow (r .idle .empty) .ordinary 2 = .joins := by decide

theorem test_fire_met :
    let q := Psq.cold.setBuffer .a (.staged 1 .recall [0])
    let x := q.fire pit 0 .ordinary 1
    let y := (q.onPort .a (fun r => { r with slots := r.slots.set 0 (some 0) })).fire pit 0 .ordinary 1
    q.hold = false ∧ q.target = none ∧ q.scan = none ∧ q.queued = none ∧
      x.ports.a.list = [0] ∧ x.ports.a.state = .sending ∧
      x.ports.a.buffer = .loading 2 (.delta 0 []) false ∧
      x.ports.b.buffer = .loading 1 .recall true ∧ y.ports.a.list = [] ∧
      (({ joined with psq := q } : State).fireRequest pit .recall 1).con.together.map
        (fun y => y.2.bytes) = [[4, 0, 0, 0, 3, 2, 3]] := by decide

theorem test_hold_end_met :
    let q : Psq := { Psq.cold with hold := true }
    let d (st : PortState) := (q.onPort .a (fun r =>
      { r with state := st, list := [0, 0], buffer := .deferred 1 .delta [0] })).endHold
    (d .settling).ports.a.list = [0] ∧ (d .held).ports.a.list = [] ∧
      (d .held).ports.a.state = .idle ∧ (d .sending).ports.a.buffer = .empty ∧
      (q.setBuffer .b (.loading 1 .recall true)).endHold.ports.b.buffer =
        .loading 1 .recall false := by decide

theorem test_action_met :
    let s := joined.onPsq (fun q => q.onPort .a (fun r =>
      { r with state := .sending, list := [0, 0], sendEnd := some 50 }))
    let t := after (.actionSent .a 50) s
    let h := t.onPsq (fun q => { q with hold := true })
    let d := t.onPsq (fun q => q.onPort .a (fun r =>
      { r with list := [0], buffer := .deferred 2 .delta [0] }))
    s.psq.ports.a.list = [0, 0] ∧ t.psq.ports.a.slots.head? = some (some 0) ∧
      after (.actionSent .a 49) s = s ∧ t.psq.ports.a.settle = some 50 ∧ t.psq.ports.a.state = .settling ∧
      (after (.settleExpiry .a) t).psq.ports.a.sendEnd = some (50 + 520833) ∧
      (after (.settleExpiry .a) h).psq.ports.a.state = .held ∧ d.psq.hold = false ∧
      (after (.settleExpiry .a) d).psq.ports.a.state = .sending := by decide

/-! ## The click and the video -/

theorem test_timers_met :
    let s := (inShow .run 1 joined).onCke (fun k =>
      { k with beatTimer := some { pending := 9, last := none, reload := 1200 }, shadow := .running 9,
               subNext := some 9, subOwed := 1 })
    (after .beatTimerExpiry s).cke.beatPosted = true ∧
      (after .shadowTimerExpiry s).cke.shadow = .lapsed ∧ s.cke.part = some click ∧
      (after .subTimerExpiry s).cke.lanes.l0.pulses = 1 ∧
      (after .subTimerExpiry s).cke.subNext = none := by decide

theorem test_tap_met :
    let s := after (.tapPress 0 false) joined
    joined.con.buttons.get .tap = false ∧ s.con.buttons.get .tap = true ∧
      pit.isRanked pit.station = true ∧ joined.cke.tap = none ∧ s.cke.tap = some 0 ∧
      after (.tapPress 500000000 false) s = s ∧
      (after (.tapPress 500000000 true) s).le.queue =
        [Entry.fresh (.tempo { tempo := 1200, atOnce := false })] ∧
      (after (.tapPress 2000000000 true) s).le.queue.length = 1 ∧
      (after (.tapPress 2000100000 true) s).le.queue = [] ∧
      (after (.tapPress 1 false) (atLine stagehand .joined)).cke.tap = none := by decide

def camera (lock : LockState) (misses : Nat) : State :=
  joined.onVsl (fun v =>
    { v with monitors := { v.monitors with
      front := { lock := lock, misses := misses, expired := false, window := some 5 } } })

theorem test_sync_met :
    let p := (camera .locked 0).onVsl (fun v => { v with pendingSwitch := some .front })
    pit.roles.video = true ∧
      ((after (.frameSync .front 1 true) (camera .unlocked 0)).vsl.monitors.front.lock) =
        .locking 0 ∧
      ((after (.frameSync .front 1 true) (camera (.locking 7) 0)).vsl.monitors.front.lock) =
        .locked ∧
      (after (.frameSync .front 1 true) (camera (.locking 7) 0)).vsl.pendingSwitch = some .front ∧
      (camera (.locking 7) 0).vsl.monitors.front.expired = false ∧
      (after (.frameSync .front 1 true) p).vsl.pendingSwitch = none ∧
      (after (.frameSync .front 1 true) p).vsl.live = some .front ∧
      (after (.frameSync .front 1 true) p).vsl.composer ≠ .idle := by decide

theorem test_window_met :
    let s := (camera .locked 2).onVsl (fun v => { v with live := some .front })
    let c := ({ s with image := some criticalPit } : State).onSpu
      (fun u => { u with showState := .run })
    (camera .locked 1).vsl.monitors.front.misses < 2 ∧ 2 ≤ s.vsl.monitors.front.misses ∧
      s.vsl.live = some .front ∧ (camera .locked 2).vsl.live ≠ some .front ∧
      (after (.frameWindowExpiry .front) s).vsl.live = none ∧
      criticalPit.isFree c.spu.cue = true ∧ c.spu.ownStop = false ∧
      (after (.frameWindowExpiry .front) c).spu.showState = .stopped := by decide

theorem test_window_locking_met :
    let t (n : Nat) := (after (.frameWindowExpiry .front) (camera (.locking 4) n)).vsl.monitors.front
    (t 1).expired = true ∧ (t 1).misses = 2 ∧ (t 1).lock = .locking 4 ∧ (t 2) = Monitor.cold ∧
      (camera (.locking 4) 2).vsl.live ≠ some .front := by decide

theorem test_slate_met :
    let s := joined.onVsl (fun v => { v with slate := some 5 })
    let t := after (.slateTimerExpiry true) s
    s.vsl.slate = some 5 ∧ t.vsl.composer = .sending
        [65, 32, 32, 32, 32, 48, 48, 48, 49, 46, 48, 49, 32, 80, 82, 69] (5 + 1388888) ∧
      t.vsl.composer.bytesLeft 5 = 16 ∧ t.vsl.composer.bytesLeft (5 + 1388887) = 1 ∧
      joined.vsl.captionLevel 5 = true ∧ t.vsl.captionLevel 5 = false := by decide

theorem test_caption_met :
    let x : Snapshot := { stopSnapshot with cue := 1 }
    let stopped := (inShow .stopped 2 joined).onSpu (fun u => { u with snapshot := some x })
    let late := (inShow .run 1 joined).onSpu (fun u => { u with late := true })
    let vamp := (inShow .run 1 joined).onCke (fun k => { k with vamp := some { pass := 1, left := none } })
    stopped.caption pit =
        [65, 32, 32, 32, 32, 48, 48, 49, 51, 46, 48, 50, 32, 83, 84, 80] ∧
      (late.caption pit).drop 13 = [76, 65, 84] ∧ (vamp.caption pit).drop 13 = [86, 77, 80] ∧
      ((inShow .run 0 joined).caption pit).drop 13 = [70, 82, 69] ∧
      ((inShow .run 1 joined).caption pit).drop 13 = [82, 85, 78] ∧
      ((inShow .countin 1 joined).caption pit).drop 13 = [67, 78, 84] ∧
      ((inShow .standby 1 joined).caption pit).drop 13 = [83, 66, 89] := by decide

/-! ## The operator's inputs and the console -/

theorem test_stop_requests_met :
    let s := inShow .run 1 joined
    s.spu.ownStop = false ∧ s.con.safetyLine = false ∧ s.le.holds .halt = false ∧
      s.le.waitingHalt = none ∧ s.le.entryInFlight = false ∧
      (after (.stopPress false) s).le.breakPending = true ∧
      (after .safetyAssertion s).spu.ownStop = true ∧
      (after (.consoleStop 4) s).le.queue = [Entry.fresh (.halt { reason := .console, detail := 4 })] := by
  decide

theorem test_stop_forms_met :
    let press (s : State) := after (.stopPress false) s
    let countin := (inShow .countin 1 joined).onSpu (fun u =>
      { u with restart := some { bar := 5, pass := some 2 } })
    let standby := (inShow .standby 1 joined).onSpu (fun u => { u with snapshot := some stopSnapshot })
    let stopped := inShow .stopped 1 joined
    let held := (inShow .run 1 joined).onCon (fun c =>
      { c with buttons := c.buttons.assert .stop, safetyLine := true })
    (press countin).spu.snapshot.map Snapshot.bar = some 5 ∧
      (press standby).spu.snapshot = some stopSnapshot ∧ (press standby).spu.showState = .stopped ∧
      stopped.spu.ownStop = false ∧ (press stopped).con.notices = [] ∧
      (press stopped).spu.ownStop = true ∧ (press (press stopped)).spu.ownStop = true ∧
      press held = held ∧ after .safetyAssertion held = held ∧
      (press State.reset).spu = State.reset.spu ∧
      (after (.stopPress true) held).spu.ownStop = true := by decide

theorem test_release_met :
    let s := (inShow .stopped 1 joined).onSpu (fun u => { u with ownStop := true, stopPosted := true })
    let f := s.onCon (fun c => { c with safetyLine := true })
    s.image = some pit ∧ s.con.together = [] ∧ (after (.releasePress false) s).spu.ownStop = false ∧
      (after .consoleRelease f).con.reply = [1] ∧ (after (.releasePress false) f).spu.ownStop = true ∧
      (after .safetyDeassertion f).con.safetyLine = false := by decide

theorem test_go_met :
    let s := inShow .run 1 joined
    s.le.holds .call = false ∧ (after (.goPress false) s).le.queue.length = 1 ∧
      (after (.consoleGo 3 1) s).con.reply = [0] ∧ (after (.consoleGo 4 0) s).con.reply = [3] ∧
      (after (.consoleGo 3 1) (inShow .stopped 1 joined)).con.reply = [1] := by decide

theorem test_presses_held_met :
    let s := inShow .run 1 joined
    let g := after (.goPress false) s
    let q := after (.releasePress false) (inShow .stopped 1 joined)
    s.con.buttons.get .go = false ∧ after (.goPress false) g = g ∧
      (after (.goPress true) g).le.queue.length = 1 ∧ q.con.buttons.get .release = true ∧
      after (.releasePress false) q = q ∧
      (after (.goPress false) State.reset).con.buttons.go = true ∧
      (after (.releasePress false) State.reset).con.notices = State.reset.con.notices := by decide

theorem test_frames_met :
    consoleArgs 0x13 = some 6 ∧ frameCommand [0x13, 0, 2, 0, 9, 1] = none ∧
      frameCommand [0x13, 0, 2, 0, 9, 1, 7] = some (.consoleResume 2 9 1 7) ∧
      frameCommand [0x10, 1, 2, 1, 0xFF] = some (.consoleGo 0x0102 1) ∧
      (0x20 : Byte) ∉ listedCodes ∧ frameCommand [0x20] = some (.unknownCommand 0x20) ∧
      frameCommand [] = none ∧ shiftOut 0x81 = [true, false, false, false, false, false, false, true] ∧
      shiftIn [true, false, false, false, false, false, false, true] = 0x81 ∧
      frameByte State.reset 0 (after .consoleStatus State.reset) 10 = 255 ∧
      frameByte State.reset 0 (after .consoleStatus State.reset) 11 = 0 ∧
      State.reset.statusByte = 0x20 := by decide

theorem test_console_reads_met :
    let s := State.reset
    (after .consoleStatus s).con.reply = [0, 0, 0, 0, 0, 0, 0, 0, 0, 255] ∧
      (after .consoleNotice s).con.reply = [0, 1, 0, 0, 0, 255, 1, 0] ∧
      (after .noticeRemoval (after .consoleNotice s)).con.notices = [] ∧
      (after .overflowClear (after .consoleStatus (s.onCon (fun c =>
        { c with overflow := true })))).con.overflow = false ∧
      (joined.onSpu (fun u => { u with late := true, ownStop := true })).flagsByte = 0x13 ∧
      (joined.onSpu (fun u => { u with proposal := some (.resume (heldResume 1)) })).flagsByte = 0x41 ∧
      (after .consolePosition joined).con.reply =
        [0, 0, 0, 65, 32, 32, 32, 0, 1, 1, 0, 4, 176] := by decide

theorem test_console_requests_met :
    joined.le.holds .resume = false ∧ joined.le.holds .camera = false ∧
      (after (.consoleResume 2 9999 4 7) joined).con.reply = [0] ∧
      (after (.consoleResume 2 9999 5 7) joined).con.reply = [3] ∧
      (after (.consoleCamera 3) joined).con.reply = [0] ∧
      (after (.consoleTempo 299 0) joined).con.reply = [3] ∧
      (after .consoleRestart joined).con.restartOwed = true ∧
      (after (.unknownCommand 0) joined).con.reply = [3] ∧
      (after .consoleRestart State.reset).con.reply = [1] := by decide

theorem test_resume_requests_met :
    let s := after (.consoleResume 2 9999 4 7) joined
    s.le.queue.length = 1 ∧ s.le.holds .resume = true ∧
      (after (.consoleResume 2 9999 4 6) s).con.reply = [2] ∧
      (after (.consoleResume 2 9999 4 7) s).con.reply = [0] ∧
      (after (.consoleResume 2 9999 4 7) s).le = s.le ∧
      (after (.consoleResume 4 1 0 0) joined).con.reply = [3] ∧
      (after (.consoleResume 2 9 0 0) isolated).con.reply = [1] := by decide

theorem test_attend_met :
    (after (.attendLineChange true) joined).con.attendPosted = true ∧
      (after (.consoleAttend 1) joined).con.attendPosted = true ∧
      (after (.consoleAttend 2) joined).con.reply = [3] := by decide

theorem test_warm_reset_met :
    let s := after .consoleRestart joined
    let d := s.onLe (fun x => { x with drive := votes 1, driveFrom := 0 })
    s.image = some pit ∧ s.con.restartOwed = true ∧ 0 < pit.charTime ∧
      s.le.driving pit 7 = none ∧ d.le.driving pit (pit.charTime + 7) = some (vote 8) ∧
      (after (.warmReset 7) s).con.notices.map Notice.bytes = [[1, 0, 0, 0, 3, 2, 0]] ∧
      (after (.warmReset 7) s).le.roundTimer = some (7 + pit.roundTime) ∧
      (after (.warmReset (pit.charTime + 7)) d).le.drive = [vote 8] ∧
      (after (.warmReset (pit.charTime + 7)) d).le.roundTimer =
        some (2 * pit.charTime + pit.roundTime) := by decide

theorem test_warm_reset_finishes_break :
    let s := (after .consoleRestart joined).onLe (fun x =>
      { x with
        breakDriving := some 8, breakUntil := 20 + pit.charTime, drive := [breakBits], driveFrom := 20 })
    let u := after (.warmReset 25) s
    u.le.drive = [breakBits] ∧ u.le.breakDriving = none ∧ u.le.breakUntil = 20 + pit.charTime ∧
      (after (.breakSeen 30) u).le.driving pit 30 = some breakBits ∧
      (after (.breakSeen (20 + pit.charTime)) u).le.drive = [] := by decide

/-! ## The talk queue and the invariants -/

theorem test_queue_met :
    let l := Le.cold.submitReplacing (.camera none)
    let r := Le.cold.submitResume (heldResume 0).resume
    l.queue = [] ++ Entry.fresh (.camera none) :: [] ∧
      (Entry.fresh (.camera none)).message.kind = (Message.camera (some .wide)).kind ∧
      r.holds .resume = true ∧ Entry.fresh (.resume (heldResume 0).resume) ∈ r.queue ∧
      (Le.cold.submitHalt { reason := .video, detail := 0 }).queue.length = 1 := by decide

theorem test_invariants_met :
    State.reset.stopClaim ∧ State.reset.readinessTold ∧ State.reset.countsFit ∧
      step { State.reset with pending := [.captionSent] } = .next State.reset := by
  refine ⟨⟨rfl, ?_⟩, rfl, ?_, rfl⟩
  · decide
  · unfold State.countsFit; decide

end Sys2Proof.Tests
end

section
/-! What every step keeps (O60). The records of the blocks that a step must keep told, each judged at its own block,
and one relation between a state and a later one of the same event, which every operation of the station extends. -/

namespace Sys2Proof.Machine

/-! ## The records of one block -/

/-- R100: NOTREADY follows readiness, at PSQ. -/
def Psq.told (q : Psq) : Prop := q.notReady = q.unready

/-- R150: CAMFAIL follows the live and the desired source, at VSL under an image. -/
def Vsl.told (v : Vsl) (img : Image) : Prop := v.camfail = (img.inService && v.live != v.desired)

/-- R196: from image accepted ATTEND follows the line and the flag, at CON. -/
def Con.told (c : Con) : Prop := c.attendPosted = (c.attendLine || c.attendFlag)

/-- R33, R43, R55: the reported counts lie in 0 to 255, at LE. -/
def Le.countsFit (l : Le) : Prop :=
  l.clashCount ≤ 255 ∧ l.lineFaultCount ≤ 255 ∧ l.shortCount ≤ 255 ∧ l.badCount ≤ 255

theorem State.readinessTold_iff (s : State) : s.readinessTold ↔ s.psq.told := Iff.rfl

theorem State.countsFit_iff (s : State) : s.countsFit ↔ s.le.countsFit := Iff.rfl

theorem State.camfailTold_iff {s : State} {img : Image} (h : s.image = some img) :
    s.camfailTold ↔ s.vsl.told img := by
  simp [State.camfailTold, State.inService, Vsl.told, h]

theorem State.attendTold_iff {s : State} {img : Image} (h : s.image = some img) :
    s.attendTold ↔ s.con.told := by
  simp [State.attendTold, Con.told, h]

/-! ## PSQ -/

section
variable {q : Psq}

theorem Psq.told_judge (q : Psq) : q.judge.told := q.judge_told

theorem Psq.told_withdraw (q : Psq) : q.withdraw.told := Psq.told_judge _

theorem Psq.told_handTarget (q : Psq) (x : PendingTarget) (cue : Nat) : (q.handTarget x cue).told :=
  Psq.told_judge _

theorem Psq.told_fire (q : Psq) (img : Image) (cue : Nat) (form : FireForm) (x : Nat) :
    (q.fire img cue form x).told := Psq.told_judge _

theorem Psq.told.beginHold (h : q.told) : q.beginHold.told := by
  unfold Psq.beginHold
  split
  · exact h
  · exact Psq.told_judge _

theorem Psq.told.loadStep {img : Image} {cue : Nat} {p : Port} (h : q.told) :
    (q.loadStep img cue p).told := by
  unfold Psq.loadStep
  split
  · dsimp only
    split
    · exact Psq.told_judge _
    · exact Psq.told_judge _
  · exact h

/-- R102: a step within the scan touches neither the buffers nor the target. -/
theorem Psq.told.scanStep {img : Image} {cue : Nat} (h : q.told) : (q.scanStep img cue).told := by
  unfold Psq.scanStep
  split
  · exact h
  · dsimp only
    split
    · exact Psq.told_judge _
    · exact h

theorem Psq.told.actionSent {img : Image} {p : Port} {now : Nat} (h : q.told) :
    (q.actionSent img p now).told := by
  unfold Psq.actionSent
  dsimp only
  split
  · split
    · exact Psq.told_judge _
    · exact h
  · exact h

theorem Psq.told.settleExpiry {img : Image} {cue : Nat} {p : Port} (h : q.told) :
    (q.settleExpiry img cue p).told := by
  unfold Psq.settleExpiry
  dsimp only
  split
  · exact Psq.told_judge _
  · exact h

theorem Psq.told.beginSends {b : Psq} {img : Image} {now : Nat} (h : q.told) :
    (q.beginSends b img now).told := by
  unfold Psq.told
  rw [Psq.beginSends_unready]
  exact h

end

/-! ## VSL -/

section
variable {v : Vsl} {img : Image}

theorem Vsl.told_judgeCamfail (v : Vsl) (img : Image) : (v.judgeCamfail img).told img := rfl

theorem Vsl.told.rechoose (h : v.told img) : (v.rechoose img).told img := h

theorem Vsl.told.rederive {cue : Nat} {st : ShowState} (h : v.told img) :
    (v.rederive img cue st).told img := Vsl.rederive_told v img cue st h

theorem Vsl.told_switchTo (v : Vsl) (img : Image) (i : Source) : (v.switchTo img i).told img :=
  (Vsl.told_judgeCamfail _ img).rechoose

theorem Vsl.told_loseLive (v : Vsl) (img : Image) (e : Nat) : (v.loseLive img e).told img :=
  (Vsl.told_judgeCamfail _ img).rechoose

/-- R142, R157: at image accepted the live source is none, and the desired one is present exactly in service. -/
theorem Vsl.told_start (img : Image) (now : Nat) : (Vsl.start img now).told img := by
  unfold Vsl.told Vsl.start
  cases img.inService <;> rfl

/-- R157: at a warm reset the live source is none. -/
theorem Vsl.told_warm (v : Vsl) (img : Image) (cue : Nat) (st : ShowState) (now : Nat) :
    (v.warm img cue st now).told img := by
  unfold Vsl.told Vsl.warm
  dsimp only
  cases v.desiredFor img cue st <;> rfl

end

/-! ## CON -/

theorem Con.told_judgeAttend (c : Con) : c.judgeAttend.told := rfl

theorem Con.told_warm (c : Con) : c.warm.told := Con.told_judgeAttend _

/-! ## LE: the four counts -/

theorem bump_le (n : Nat) : bump n ≤ 255 := Nat.min_le_right _ _

theorem Le.countsFit_cold : Le.cold.countsFit := by
  refine ⟨?_, ?_, ?_, ?_⟩ <;> exact Nat.zero_le _

section
variable {l : Le} {img : Image}

theorem Le.countsFit.bumpClash (h : l.countsFit) :
    ({ l with clashCount := bump l.clashCount } : Le).countsFit := ⟨bump_le _, h.2⟩

theorem Le.countsFit.bumpShort (h : l.countsFit) :
    ({ l with shortCount := bump l.shortCount } : Le).countsFit := ⟨h.1, h.2.1, bump_le _, h.2.2.2⟩

theorem Le.countsFit.bumpBad (h : l.countsFit) :
    ({ l with badCount := bump l.badCount } : Le).countsFit := ⟨h.1, h.2.1, h.2.2.1, bump_le _⟩

theorem Le.countsFit.isolatedRecord {now : Nat} (h : l.countsFit) :
    (l.isolatedRecord img now).countsFit := ⟨h.1, bump_le _, h.2.2⟩

theorem Le.countsFit.submitHalt {f : HaltFields} (h : l.countsFit) : (l.submitHalt f).countsFit := by
  unfold Le.submitHalt
  split
  · exact h
  · split <;> exact h

theorem Le.countsFit.submitReplacing {m : Message} (h : l.countsFit) :
    (l.submitReplacing m).countsFit := by
  unfold Le.submitReplacing
  split <;> exact h

theorem Le.countsFit.submitResume {f : ResumeFields} (h : l.countsFit) :
    (l.submitResume f).countsFit := by
  unfold Le.submitResume
  split <;> exact h

theorem Le.countsFit.requestBreak {now : Nat} (h : l.countsFit) : (l.requestBreak now).countsFit := by
  unfold Le.requestBreak
  split <;> exact h

theorem Le.countsFit.failSend (h : l.countsFit) : l.failSend.countsFit :=
  Le.countsFit.bumpClash (l := l.settleSend false) h

theorem Le.countsFit.endBreak {p : Nat} (h : l.countsFit) : (l.endBreak p).countsFit := by
  unfold Le.endBreak
  split <;> exact h

theorem Le.countsFit.sawBits {w : Samples} (h : l.countsFit) : (l.sawBits w).countsFit := by
  unfold Le.sawBits
  split <;> exact h

theorem Le.countsFit.sawAll {ws : List Samples} (h : l.countsFit) :
    (ws.foldl Le.sawBits l).countsFit := by
  induction ws generalizing l with
  | nil => exact h
  | cons w ws ih => exact ih h.sawBits

theorem Le.countsFit.expireJoined {e : Nat} (h : l.countsFit) : (l.expireJoined img e).countsFit := by
  unfold Le.expireJoined
  split <;> exact h

theorem Le.countsFit.countIsolation {e : Nat} (h : l.countsFit) :
    (l.countIsolation img e).countsFit := by
  unfold Le.countIsolation
  dsimp only
  split
  · split <;> exact h
  · exact h

theorem Le.countsFit.openLocal {e : Nat} (h : l.countsFit) : (l.openLocal img e).countsFit := h

theorem Le.countsFit.restartTimer {e : Nat} (h : l.countsFit) : (l.restartTimer img e).countsFit := by
  unfold Le.restartTimer
  split <;> exact h

theorem Le.countsFit.markStands {r : Round} {w : Samples} {c : Option Character} (h : l.countsFit) :
    (l.markStands img r w c).countsFit :=
  Le.countsFit.endBreak (l := l.restartTimer img r.edge) h.restartTimer

theorem Le.countsFit.markWithdrawn (h : l.countsFit) : l.markWithdrawn.countsFit :=
  Le.countsFit.endBreak (l := l.sawDominant) h

theorem Le.countsFit.driveVote {start : Nat} (h : l.countsFit) : (l.driveVote img start).countsFit := by
  unfold Le.driveVote
  split <;> exact h

theorem Le.countsFit.breakSend {p : Nat} (h : l.countsFit) : (l.breakSend p).countsFit := by
  unfold Le.breakSend
  split
  · split
    · exact h.failSend
    · exact h
  · exact h

theorem Le.countsFit.startBreak {t p : Nat} (h : l.countsFit) : (l.startBreak img t p).countsFit :=
  Le.countsFit.breakSend (p := p) h

theorem Le.countsFit.sendOverBreak {slot : Nat} (h : l.countsFit) : (l.sendOverBreak slot).countsFit := by
  unfold Le.sendOverBreak
  split
  · exact h.failSend
  · exact h

theorem Le.countsFit.takeHead {d : Byte} (h : l.countsFit) : (l.takeHead d).countsFit := by
  unfold Le.takeHead
  dsimp only
  split
  · split
    · exact h
    · exact h.bumpBad
  · exact h.bumpBad

theorem Le.countsFit.takeBody {k : MessageKind} {n : Nat} {body : List Byte} {d : Byte}
    (h : l.countsFit) : (l.takeBody k n body d).countsFit := by
  unfold Le.takeBody
  dsimp only
  split <;> exact h

theorem Le.countsFit.decode {c : Option Character} (h : l.countsFit) : (l.decode c).countsFit := by
  unfold Le.decode
  split
  · split
    · exact h.takeHead
    · split
      · exact h
      · exact h.bumpShort
  · split
    · exact h.takeBody
    · exact h.bumpShort
  · exact h.bumpShort
  · exact h.bumpBad
  all_goals exact h

theorem Le.countsFit.endSlot {last : Nat} (h : l.countsFit) : (l.endSlot last).countsFit := by
  refine ⟨h.1, h.2.1, ?_, h.2.2.2⟩
  show (match l.decoder with
    | .assembling _ _ _ => bump l.shortCount
    | _ => l.shortCount) ≤ 255
  split
  · exact bump_le _
  · exact h.2.2.1

end

/-! ## One event -/

/-- The image and the loader's acceptance stand, and every record that was told still is: s and t are states of one
event at a station that holds the image. -/
structure KeepsRecords (img : Image) (s t : State) : Prop where
  image : t.image = s.image
  accepted : t.con.loader = .accepted ↔ s.con.loader = .accepted
  readiness : s.psq.told → t.psq.told
  camfail : s.vsl.told img → t.vsl.told img
  attend : s.con.told → t.con.told
  counts : s.le.countsFit → t.le.countsFit

namespace KeepsRecords

theorem refl (img : Image) (s : State) : KeepsRecords img s s :=
  ⟨rfl, Iff.rfl, id, id, id, id⟩

section
variable {img : Image} {s t : State}

/-! ### Single updates -/

theorem onSpu {f : Spu → Spu} (h : KeepsRecords img s t) : KeepsRecords img s (t.onSpu f) :=
  ⟨h.image, h.accepted, h.readiness, h.camfail, h.attend, h.counts⟩

theorem onCke {f : Cke → Cke} (h : KeepsRecords img s t) : KeepsRecords img s (t.onCke f) :=
  ⟨h.image, h.accepted, h.readiness, h.camfail, h.attend, h.counts⟩

theorem reach {n : Nat} (h : KeepsRecords img s t) : KeepsRecords img s (t.reach n) :=
  ⟨h.image, h.accepted, h.readiness, h.camfail, h.attend, h.counts⟩

theorem onPsq {f : Psq → Psq} (h : KeepsRecords img s t) (g : t.psq.told → (f t.psq).told) :
    KeepsRecords img s (t.onPsq f) :=
  ⟨h.image, h.accepted, fun x => g (h.readiness x), h.camfail, h.attend, h.counts⟩

theorem onPorts {f : Psq → Psq} (h : KeepsRecords img s t) (g : t.psq.told → (f t.psq).told) :
    KeepsRecords img s (t.onPorts img f) :=
  h.onPsq (fun x => (g x).beginSends)

theorem onVsl {f : Vsl → Vsl} (h : KeepsRecords img s t) (g : t.vsl.told img → (f t.vsl).told img) :
    KeepsRecords img s (t.onVsl f) :=
  ⟨h.image, h.accepted, h.readiness, fun x => g (h.camfail x), h.attend, h.counts⟩

theorem onLe {f : Le → Le} (h : KeepsRecords img s t) (g : t.le.countsFit → (f t.le).countsFit) :
    KeepsRecords img s (t.onLe f) :=
  ⟨h.image, h.accepted, h.readiness, h.camfail, h.attend, fun x => g (h.counts x)⟩

theorem onCon {f : Con → Con} (h : KeepsRecords img s t)
    (g : (f t.con).loader = .accepted ↔ t.con.loader = .accepted) (k : t.con.told → (f t.con).told) :
    KeepsRecords img s (t.onCon f) :=
  ⟨h.image, g.trans h.accepted, h.readiness, h.camfail, fun x => k (h.attend x), h.counts⟩

theorem ite {c : Prop} [Decidable c] {u : State} (h : KeepsRecords img s t) (g : KeepsRecords img s u) :
    KeepsRecords img s (if c then t else u) := by
  split
  · exact h
  · exact g

theorem postNotice {o : Origin} {n : Notice} (h : KeepsRecords img s t) :
    KeepsRecords img s (t.postNotice o n) :=
  ⟨h.image, h.accepted, h.readiness, h.camfail, h.attend, h.counts⟩

theorem post {o : Origin} {kind : NoticeKind} {k d1 d2 : Nat} (h : KeepsRecords img s t) :
    KeepsRecords img s (t.post o kind k d1 d2) := h.postNotice

theorem flush (h : KeepsRecords img s t) : KeepsRecords img s t.flush := h.onCon Iff.rfl id

theorem settleClick (h : KeepsRecords img s t) : KeepsRecords img s (t.settleClick img) := h.onCke

theorem handVideo (h : KeepsRecords img s t) : KeepsRecords img s (t.handVideo img) :=
  h.onVsl Vsl.told.rederive

theorem dropReceived (h : KeepsRecords img s t) : KeepsRecords img s t.dropReceived := h.onLe id

/-! ### Stops -/

theorem callDropped {o : Origin} {k r a : Nat} (h : KeepsRecords img s t) :
    KeepsRecords img s (t.callDropped img o k r a) := h.post.ite h

theorem resumeDropped {o : Origin} {k r : Nat} (h : KeepsRecords img s t) :
    KeepsRecords img s (t.resumeDropped img o k r) := h.post.ite h

theorem dropNotices (h : KeepsRecords img s t) : KeepsRecords img s (t.dropNotices img) := by
  have k : Keeps t (t.dropNotices img) := Keeps.dropNotices img t
  obtain ⟨-, -, -, -, -, hpsq, -, hvsl⟩ := t.dropNotices_frame img
  refine ⟨k.image.trans h.image, by rw [k.loader]; exact h.accepted, ?_, ?_, ?_, ?_⟩
  · rw [hpsq]; exact h.readiness
  · rw [hvsl]; exact h.camfail
  · unfold Con.told
    rw [k.attendPosted, k.attendLine, k.attendFlag]
    exact h.attend
  · rw [k.le]; exact h.counts

theorem enterStopped {d1 k d2 : Nat} (h : KeepsRecords img s t) :
    KeepsRecords img s (t.enterStopped img d1 k d2) :=
  h.ite (((h.dropNotices.onSpu).onPsq (fun _ => (Psq.told_withdraw _).beginHold)).onCke).post

theorem raiseStop {r : StopReason} {d : Byte} (h : KeepsRecords img s t) :
    KeepsRecords img s (t.raiseStop img r d) :=
  h.ite (h.onSpu.onLe (fun x => x.requestBreak.submitHalt)).enterStopped

theorem videoStop {b : State} (h : KeepsRecords img s t) : KeepsRecords img s (t.videoStop img b) :=
  h.raiseStop.ite h

theorem conclude {b : State} (h : KeepsRecords img s t) : KeepsRecords img s (t.conclude img b) :=
  h.videoStop.settleClick.flush

theorem release (h : KeepsRecords img s t) : KeepsRecords img s (t.release img) :=
  h.post.ite (h.onSpu.post.ite h)

theorem enterStandby (h : KeepsRecords img s t) : KeepsRecords img s (t.enterStandby img) :=
  h.onSpu.post

/-! ### Commits and decisions -/

theorem fireRequest {form : FireForm} {x : Nat} (h : KeepsRecords img s t) :
    KeepsRecords img s (t.fireRequest img form x) := by
  have hfire : ∀ {u : State} {cue : Nat}, KeepsRecords img s u →
      KeepsRecords img s (u.onPorts img (fun q => q.fire img cue form x)) :=
    fun g => g.onPorts (fun _ => Psq.told_fire _ _ _ _ _)
  unfold State.fireRequest
  dsimp only
  split <;> split
  · exact hfire h.onSpu.post.post
  · exact hfire h.onSpu.post
  · exact hfire h.onSpu.post
  · exact hfire h.onSpu

theorem applyCommit {c : Commit} (h : KeepsRecords img s t) : KeepsRecords img s (t.applyCommit img c) :=
  have g := h.onSpu.post.fireRequest
  h.ite (g.ite g.onCke).handVideo

theorem takeEffect {c : Commit} (h : KeepsRecords img s t) : KeepsRecords img s (t.takeEffect img c) :=
  (h.ite h.applyCommit.onSpu).ite h.applyCommit

theorem commitCall {x : HeldCall} {f o : Bool} (h : KeepsRecords img s t) :
    KeepsRecords img s (t.commitCall img x f o) :=
  h.takeEffect.ite h.onSpu.onCke

theorem clearProposal (h : KeepsRecords img s t) : KeepsRecords img s t.clearProposal :=
  h.onSpu.onPsq (fun _ => Psq.told_withdraw _)

theorem decideCall {c : Contributions} {x : HeldCall} (h : KeepsRecords img s t) :
    KeepsRecords img s (t.decideCall img c x) :=
  h.clearProposal.callDropped.ite
    ((h.onSpu.ite h.clearProposal.commitCall).ite h.clearProposal.commitCall)

theorem decideObserved {c : Contributions} {x : HeldCall} (h : KeepsRecords img s t) :
    KeepsRecords img s (t.decideObserved img c x) :=
  h.onSpu.callDropped.ite ((h.onSpu.ite h.onSpu.commitCall).ite h.onSpu.commitCall)

theorem armedDownbeat (h : KeepsRecords img s t) : KeepsRecords img s (t.armedDownbeat img) := by
  unfold State.armedDownbeat
  split
  · exact h.onSpu.takeEffect
  · exact h

theorem autoGo {cue : Nat} (h : KeepsRecords img s t) : KeepsRecords img s (t.autoGo img cue) := by
  have g : ∀ {c : Commit} {f : Spu → Spu},
      KeepsRecords img s ((t.clearProposal.onSpu f).applyCommit img c) := h.clearProposal.onSpu.applyCommit
  unfold State.autoGo
  dsimp only
  split
  · split
    · exact g.callDropped
    · exact g
  · exact h

theorem takeCall {k : Nat} {f : CallFields} (h : KeepsRecords img s t) :
    KeepsRecords img s (t.takeCall img k f) := by
  unfold State.takeCall
  dsimp only
  split
  · exact h.onSpu.onSpu
  · exact h.onSpu
  · exact h.onSpu.onSpu
  · exact h.onSpu.onSpu
  · exact h.onSpu.onSpu.onPsq (fun _ => Psq.told_handTarget _ _ _)

theorem submitCall {f : CallFields} (h : KeepsRecords img s t) : KeepsRecords img s (t.submitCall f) :=
  h.onLe Le.countsFit.submitReplacing

/-! ### Resumes -/

theorem takeResume {k : Nat} {f : ResumeFields} (h : KeepsRecords img s t) :
    KeepsRecords img s (t.takeResume img k f) := by
  unfold State.takeResume
  dsimp only
  split
  · exact h.onSpu.onSpu
  · exact h.onSpu
  · exact h.onSpu.onSpu.onPsq (fun _ => Psq.told_handTarget _ _ _)

theorem handResume {r : ResumeStart} {x : Option Source} (h : KeepsRecords img s t) :
    KeepsRecords img s (t.handResume img r x) :=
  (h.onCke.fireRequest.onVsl id).handVideo

theorem resumeCommit {x : HeldResume} (h : KeepsRecords img s t) :
    KeepsRecords img s (t.resumeCommit img x) :=
  (h.onSpu.onPsq (fun _ => Psq.told_withdraw _)).post.handResume

theorem decideResume {c : Contributions} {x : HeldResume} (h : KeepsRecords img s t) :
    KeepsRecords img s (t.decideResume img c x) :=
  h.clearProposal.resumeDropped.ite ((h.onSpu.ite h.clearProposal.post).ite h.resumeCommit)

theorem countInComplete (h : KeepsRecords img s t) : KeepsRecords img s (t.countInComplete img) :=
  h.onSpu.handVideo.ite h

/-! ### Adoption -/

theorem adoptPosition {f : TallyFields} (h : KeepsRecords img s t) :
    KeepsRecords img s (t.adoptPosition img f) :=
  have h2 := (h.onSpu.onPsq (fun _ => Psq.told_withdraw _)).ite h.onSpu
  have h4 := h2.onCke.onCke.ite h2.onCke
  have h5 := h4.handVideo.videoStop.ite h4
  have h6 := h5.fireRequest.ite h5
  h6.post.ite h6

theorem adoptSnapshot {f : TallyFields} (h : KeepsRecords img s t) :
    KeepsRecords img s (t.adoptSnapshot f) := by
  unfold State.adoptSnapshot
  exact h.onSpu

theorem adoptStopPosition {e : Bool} {f : TallyFields} (h : KeepsRecords img s t) :
    KeepsRecords img s (t.adoptStopPosition img e f) :=
  have g := h.onSpu.onCke.adoptSnapshot
  g.handVideo.ite g

theorem adoptInStop {f : TallyFields} {e b : Bool} (h : KeepsRecords img s t) :
    KeepsRecords img s (t.adoptInStop img f e b) :=
  have g := (h.enterStopped.ite h).adoptStopPosition
  g.enterStandby.ite g

theorem adoptOutOfStop {f : TallyFields} (h : KeepsRecords img s t) :
    KeepsRecords img s (t.adoptOutOfStop img f) :=
  (h.onSpu.onPsq (fun _ => Psq.told_withdraw _)).onCke.handVideo.fireRequest.post

theorem takeTally {k : Nat} {f : TallyFields} (h : KeepsRecords img s t) :
    KeepsRecords img s (t.takeTally img k f) := by
  unfold State.takeTally
  split
  · split
    · exact h
    · exact h.onSpu.onCke
    · exact h.adoptPosition
    · exact h.adoptOutOfStop
    · exact h.adoptInStop
  · exact h

theorem referenceWait (h : KeepsRecords img s t) : KeepsRecords img s (t.referenceWait img) :=
  h.onSpu.ite (h.onSpu.ite h)

/-! ### Arrivals -/

theorem checkShowId {k : Nat} {f : TallyFields} (h : KeepsRecords img s t) :
    KeepsRecords img s (t.checkShowId img k f) := (h.onLe id).post.ite h

theorem takeCamera {x : Option Source} (h : KeepsRecords img s t) :
    KeepsRecords img s (t.takeCamera img x) := (h.onVsl id).handVideo

theorem receiveTally {k : Nat} {f : TallyFields} (h : KeepsRecords img s t) :
    KeepsRecords img s (t.receiveTally img k f) := h.checkShowId.takeTally

theorem receiveCall {k : Nat} {f : CallFields} (h : KeepsRecords img s t) :
    KeepsRecords img s (t.receiveCall img k f) := h.post.ite h.takeCall

theorem receiveResume {k : Nat} {f : ResumeFields} (h : KeepsRecords img s t) :
    KeepsRecords img s (t.receiveResume img k f) := h.post.ite h.takeResume

theorem receiveHalt {k : Nat} {f : HaltFields} (h : KeepsRecords img s t) :
    KeepsRecords img s (t.receiveHalt img k f) :=
  (h.onSpu.ite h.onSpu.post).ite h.onSpu.enterStopped

theorem receiveTempo {k : Nat} {f : TempoFields} (h : KeepsRecords img s t) :
    KeepsRecords img s (t.receiveTempo img k f) := h.post.ite h.onCke

theorem receive {k : Nat} {m : Message} (h : KeepsRecords img s t) :
    KeepsRecords img s (t.receive img k m) := by
  cases m with
  | tally f => exact h.receiveTally
  | call f => exact h.receiveCall
  | tempo f => exact h.receiveTempo
  | halt f => exact h.receiveHalt
  | resume f => exact h.receiveResume
  | camera x => exact h.takeCamera

theorem receiveLocal {m : Message} (h : KeepsRecords img s t) :
    KeepsRecords img s (t.receiveLocal img m) := by
  unfold State.receiveLocal
  split
  · exact h.receive
  · exact h.onLe Le.countsFit.bumpBad

/-! ### Results -/

theorem countBeat {d : Bool} {e : Nat} (h : KeepsRecords img s t) :
    KeepsRecords img s (t.countBeat img d e).1 :=
  ⟨h.image, h.accepted, h.readiness, h.camfail, h.attend, h.counts⟩

theorem countResult {c : Contributions} {e : Nat} (h : KeepsRecords img s t) :
    KeepsRecords img s (t.countResult img c e).1 := by
  unfold State.countResult
  split
  · exact h.countBeat
  · exact h

theorem countDriven {d : Bool} {e : Nat} (h : KeepsRecords img s t) :
    KeepsRecords img s (t.countDriven img d e).1 := by
  unfold State.countDriven
  split
  · exact h.countBeat
  · exact h

theorem takeReports {r : Reports} (h : KeepsRecords img s t) :
    KeepsRecords img s (t.takeReports img r) :=
  have h1 := h.onSpu.ite h
  have h2 := h1.armedDownbeat.ite h1
  h2.countInComplete.ite h2

theorem takeMatch {r : Reports} (h : KeepsRecords img s t) : KeepsRecords img s (t.takeMatch img r) := by
  unfold State.takeMatch
  split
  · exact h.autoGo
  · exact h

theorem takePitCamfail {b : Bool} (h : KeepsRecords img s t) :
    KeepsRecords img s (t.takePitCamfail img b) := h.ite (h.onVsl id).post

theorem lightLamp {b : Bool} (h : KeepsRecords img s t) : KeepsRecords img s (t.lightLamp img b) :=
  (h.onCon Iff.rfl id).ite h

theorem reportAwaiting {c : Contributions} (h : KeepsRecords img s t) :
    KeepsRecords img s (t.reportAwaiting img c) := by
  unfold State.reportAwaiting
  exact
    have h1 := h.callDropped.ite h
    (h1.resumeDropped.ite h1).onSpu

theorem decideProposal {c : Contributions} (h : KeepsRecords img s t) :
    KeepsRecords img s (t.decideProposal img c) := by
  unfold State.decideProposal
  split
  · exact h.decideCall
  · exact h.decideResume
  · exact h.decideObserved
  · exact h

theorem decideVote {c : Contributions} (h : KeepsRecords img s t) :
    KeepsRecords img s (t.decideVote img c) :=
  h.enterStopped.ite ((h.ite h.enterStandby).ite h.decideProposal)

theorem handResult {c : Contributions} {e : Nat} (h : KeepsRecords img s t) :
    KeepsRecords img s (t.handResult img c e) :=
  (h.countResult.onCke.takeReports.takePitCamfail.lightLamp.reportAwaiting.decideVote.takeMatch.onSpu
    ).referenceWait

theorem handLocal {c : Contributions} {e : Nat} (h : KeepsRecords img s t) :
    KeepsRecords img s (t.handLocal img c e) :=
  h.countResult.onCke.takeReports.takePitCamfail.lightLamp.decideVote.takeMatch.onSpu

theorem handBlind {d : Bool} {e : Nat} (h : KeepsRecords img s t) :
    KeepsRecords img s (t.handBlind img d e) := by
  unfold State.handBlind
  exact h.countDriven.onCke.takeReports.takeMatch.onSpu

/-! ### The line -/

theorem enterJoined {c : Nat} (h : KeepsRecords img s t) : KeepsRecords img s (t.enterJoined img c) :=
  (h.onLe id).onSpu.post

theorem enterIsolated {c : Nat} (h : KeepsRecords img s t) :
    KeepsRecords img s (t.enterIsolated img c) :=
  have g := h.onLe Le.countsFit.isolatedRecord
  g.ite g.clearProposal.onSpu.post

theorem joinSilent {e : Nat} (h : KeepsRecords img s t) : KeepsRecords img s (t.joinSilent img e) :=
  (h.onLe id).enterJoined.onLe id

theorem expireListen {b : Bool} {e : Nat} (h : KeepsRecords img s t) :
    KeepsRecords img s (t.expireListen img b e) :=
  (h.onLe id).joinSilent.ite (h.onLe id)

theorem handRound {r : Round} {b : Bool} {c : Contributions} (h : KeepsRecords img s t) :
    KeepsRecords img s (t.handRound img r b c) :=
  ((h.onLe id).handResult.ite (h.onLe id).handBlind).ite h

theorem countReadBack {d f : Bool} (h : KeepsRecords img s t) :
    KeepsRecords img s (t.countReadBack img d f) :=
  ((h.onLe id).enterIsolated.ite (h.onLe id)).ite h

theorem joinClean {r : Round} (h : KeepsRecords img s t) : KeepsRecords img s (t.joinClean img r) :=
  (h.onLe id).enterJoined.ite h.enterJoined

theorem afterRound {r : Round} {f : Bool} {b : LineState} (h : KeepsRecords img s t) :
    KeepsRecords img s (t.afterRound img r f b) := by
  cases b with
  | joined => exact h.countReadBack
  | listen => exact h.joinClean.ite h
  | offline => exact h
  | isolated => exact h

theorem sampleVote (h : KeepsRecords img s t) : KeepsRecords img s t.sampleVote :=
  (h.onLe id).onCke

theorem reachSendEnd {x : Send} (h : KeepsRecords img s t) :
    KeepsRecords img s (t.reachSendEnd img x) := by
  unfold State.reachSendEnd
  split
  · exact h.reach
  · exact h

/-! ### The picture -/

theorem captionFrame {r : Bool} (h : KeepsRecords img s t) :
    KeepsRecords img s (t.captionFrame img r) := by
  unfold State.captionFrame
  split
  · exact (h.onVsl id).ite h
  · exact h

theorem switchFrame {i : Source} (h : KeepsRecords img s t) :
    KeepsRecords img s (t.switchFrame img i) :=
  (h.onVsl (fun _ => Vsl.told_switchTo _ _ _)).post.ite h

theorem syncFrame {i : Source} {r : Bool} (h : KeepsRecords img s t) :
    KeepsRecords img s (t.syncFrame img i r) :=
  have h1 : KeepsRecords img s (t.onVsl (fun v => v.setMonitor i
    ((t.vsl.monitors.get i).pulse img.frameWindow t.now))) := h.onVsl id
  ((h1.switchFrame.captionFrame.ite h1.switchFrame).ite (h1.onVsl Vsl.told.rechoose)).ite h

theorem windowExpiry {i : Source} {e : Nat} (h : KeepsRecords img s t) :
    KeepsRecords img s (t.windowExpiry img i e) :=
  have h1 : KeepsRecords img s (t.onVsl (fun v => v.setMonitor i
    ((t.vsl.monitors.get i).miss img.frameWindow e))) := h.onVsl id
  (((h1.onVsl (fun _ => Vsl.told_loseLive _ _ _)).post).ite (h1.onVsl Vsl.told.rechoose)).ite h1

/-! ### The console -/

theorem tap (h : KeepsRecords img s t) : KeepsRecords img s (t.tap img) := by
  unfold State.tap
  dsimp only
  split
  · split
    · exact h.onCke
    · exact h.onCke.ite (h.onCke.onLe Le.countsFit.submitReplacing)
  · exact h

theorem reply {c : ReplyCode} (h : KeepsRecords img s t) : KeepsRecords img s (t.reply c) :=
  ⟨h.image, h.accepted, h.readiness, h.camfail, h.attend, h.counts⟩

theorem takeGo {x : Nat} {w : Byte} (h : KeepsRecords img s t) :
    KeepsRecords img s (t.takeGo img x w) := by
  unfold State.takeGo
  split
  · exact h.reply
  · split
    · exact h.submitCall.reply
    · exact h.reply

theorem requestResume {c b : Nat} {n m : Byte} (h : KeepsRecords img s t) :
    KeepsRecords img s (t.requestResume img c b n m) := by
  unfold State.requestResume
  split
  · exact h.reply
  · split
    · exact h.reply.ite (h.onLe Le.countsFit.submitResume).reply
    · exact h.reply

theorem submit {m : Message} (h : KeepsRecords img s t) : KeepsRecords img s (t.submit m) :=
  (h.onLe Le.countsFit.submitReplacing).reply

/-! ### Resets -/

theorem warmReset (h : KeepsRecords img s t) : KeepsRecords img s (t.warmReset img) := by
  refine KeepsRecords.flush (KeepsRecords.post ⟨h.image, h.accepted, ?_, ?_, ?_, h.counts⟩)
  · exact fun _ => rfl
  · exact fun _ => Vsl.told_warm _ _ _ _ _
  · exact fun _ => Con.told_warm _

end

end KeepsRecords

end Sys2Proof.Machine
end

section
/-! What every step keeps (O60), continued: the effect of every command on the records, and the step. -/

namespace Sys2Proof.Machine

/-! ## From an event to the properties of the station -/

/-- Each of the five properties that a step keeps holds at the second state if it holds at the first. -/
structure RecordsKept (s t : State) : Prop where
  readiness : s.readinessTold → t.readinessTold
  camfail : s.camfailTold → t.camfailTold
  attend : s.attendTold → t.attendTold
  image : s.imageHeld → t.imageHeld
  counts : s.countsFit → t.countsFit

theorem RecordsKept.refl (s : State) : RecordsKept s s := ⟨id, id, id, id, id⟩

theorem RecordsKept.trans {s t u : State} (h : RecordsKept s t) (g : RecordsKept t u) :
    RecordsKept s u :=
  ⟨g.readiness ∘ h.readiness, g.camfail ∘ h.camfail, g.attend ∘ h.attend, g.image ∘ h.image,
    g.counts ∘ h.counts⟩

theorem KeepsRecords.kept {img : Image} {s t : State} (h : KeepsRecords img s t)
    (hi : s.image = some img) : RecordsKept s t where
  readiness := h.readiness
  camfail x :=
    (State.camfailTold_iff (h.image.trans hi)).2 (h.camfail ((State.camfailTold_iff hi).1 x))
  attend x := (State.attendTold_iff (h.image.trans hi)).2 (h.attend ((State.attendTold_iff hi).1 x))
  image x := by
    unfold State.imageHeld
    rw [h.image]
    exact ⟨x.1.trans h.accepted.symm, fun n => by simp [hi] at n⟩
  counts := h.counts

/-- What a command leaves that takes place without a held image too: the image and the loader's acceptance, LE's state
and counts, PSQ, and what VSL shows and posts. -/
structure LeavesRecords (s t : State) : Prop where
  image : t.image = s.image
  accepted : t.con.loader = .accepted ↔ s.con.loader = .accepted
  state : t.le.state = s.le.state
  counts : s.le.countsFit → t.le.countsFit
  psq : t.psq = s.psq
  video : t.vsl.camfail = s.vsl.camfail ∧ t.vsl.live = s.vsl.live ∧ t.vsl.desired = s.vsl.desired
  attend : s.attendTold → t.attendTold

theorem LeavesRecords.kept {s t : State} (h : LeavesRecords s t) : RecordsKept s t where
  readiness := by unfold State.readinessTold; rw [h.psq]; exact id
  camfail := by
    obtain ⟨hc, hl, hd⟩ := h.video
    unfold State.camfailTold State.inService
    rw [hc, hl, hd, h.image]
    exact id
  attend := h.attend
  image x := by
    unfold State.imageHeld
    rw [h.image, h.state]
    exact ⟨x.1.trans h.accepted.symm, x.2⟩
  counts := h.counts

/-- R196: an update of CON that leaves the loader's acceptance and the ATTEND record. -/
theorem LeavesRecords.onCon {s : State} {f : Con → Con}
    (hl : (f s.con).loader = .accepted ↔ s.con.loader = .accepted)
    (ha : s.attendTold → (s.onCon f).attendTold) : LeavesRecords s (s.onCon f) :=
  ⟨rfl, hl, rfl, id, rfl, ⟨rfl, rfl, rfl⟩, ha⟩

/-! ## Outcomes -/

/-- Whatever state an outcome answers, the five properties are kept. -/
def OutcomeKeeps (s : State) (o : Host.Outcome State Fault Refusal) : Prop :=
  ∀ t, o = .next t → RecordsKept s t

theorem next_keeps {s t : State} (h : RecordsKept s t) : OutcomeKeeps s (.next t) := by
  rintro _ ⟨rfl⟩
  exact h

theorem withImage_keeps {s : State} {f : Image → State}
    (h : ∀ img, KeepsRecords img s s → KeepsRecords img s (f img)) :
    OutcomeKeeps s (withImage s f) := by
  cases hi : s.image with
  | none => rw [withImage_none f hi]; exact next_keeps (RecordsKept.refl s)
  | some img => rw [withImage_some f hi]; exact next_keeps ((h img (KeepsRecords.refl img s)).kept hi)

theorem reply_keeps (s : State) (frame : Frame) (c : ReplyCode) (d : List Byte) :
    RecordsKept s (s.answer frame c d) := (LeavesRecords.onCon Iff.rfl id).kept

theorem withShow_keeps {s : State} {f : Image → State}
    (h : ∀ img, KeepsRecords img s s → KeepsRecords img s (f img)) :
    OutcomeKeeps s (withShow s f) := by
  cases hi : s.image with
  | none => rw [withShow_none f hi]; exact next_keeps (reply_keeps s _ _ _)
  | some img => rw [withShow_some f hi]; exact next_keeps ((h img (KeepsRecords.refl img s)).kept hi)

/-- R195: a press asserts its line, which no record reads, before it is handed on. -/
theorem withPress_keeps {s : State} {b : Button} {r : Bool} {f : Image → State → State}
    (h : ∀ img t, KeepsRecords img t t → KeepsRecords img t (f img t)) : OutcomeKeeps s (withPress b r s f) := by
  unfold withPress
  dsimp only
  split
  · exact next_keeps (RecordsKept.refl s)
  · intro t ht
    exact ((LeavesRecords.onCon Iff.rfl id).kept).trans (withImage_keeps (fun img => h img _) t ht)

/-! ## The loader -/

section
variable {s : State}

theorem execColdReset_keeps : OutcomeKeeps s (execColdReset s) :=
  next_keeps ⟨fun _ => rfl, fun _ => rfl, fun _ => rfl, fun _ => ⟨iff_of_false (fun e => by cases e) (fun e => by cases e), fun _ => rfl⟩,
    fun _ => Le.countsFit_cold⟩

/-- R13: a byte taken in LOADING leaves the loader in LOADING, or ends the read in CHECKING. -/
theorem Con.takeByte_loader (c : Con) (b : Byte) (h : c.loader = .loading) :
    (c.takeByte b).loader ≠ .accepted := by
  have hd : ((c.addByte b).declare).loader = .loading := by
    unfold Con.declare
    split <;> exact h
  unfold Con.takeByte Con.endRead
  split
  · split
    · split
      · exact fun e => by cases e
      · rw [hd]; exact fun e => by cases e
    · exact fun e => by cases e
  · rw [hd]; exact fun e => by cases e

/-- R13, R196: a byte taken leaves the ATTEND line, flag and contribution. -/
theorem Con.takeByte_attend (c : Con) (b : Byte) :
    (c.takeByte b).attendLine = c.attendLine ∧ (c.takeByte b).attendFlag = c.attendFlag ∧
      (c.takeByte b).attendPosted = c.attendPosted := by
  unfold Con.takeByte Con.endRead Con.declare
  repeat' split
  all_goals exact ⟨rfl, rfl, rfl⟩

theorem execByteArrival_keeps {b : Byte} : OutcomeKeeps s (execByteArrival b s) := by
  unfold execByteArrival
  split
  next h =>
    refine next_keeps (LeavesRecords.onCon ?_ ?_).kept
    · exact iff_of_false (Con.takeByte_loader _ b h) (by rw [h]; decide)
    · obtain ⟨hl, hf, hp⟩ := Con.takeByte_attend s.con b
      unfold State.attendTold
      simp only [State.onCon_con, State.onCon_image, hl, hf, hp]
      exact id
  next => exact next_keeps (RecordsKept.refl s)

/-- R16: at image accepted every record is told, whatever the station held. -/
theorem RecordsKept.accept (s : State) (img : Image) (t : State) : RecordsKept s (t.accept img) where
  readiness _ := rfl
  camfail _ := (State.camfailTold_iff rfl).2 (Vsl.told_start img t.now)
  attend _ := (State.attendTold_iff rfl).2 (Con.told_judgeAttend _)
  image _ := ⟨iff_of_true rfl rfl, fun n => by cases n⟩
  counts _ := Le.countsFit_cold

theorem execImageAccepted_keeps {t : Nat} {img : Image} :
    OutcomeKeeps s (execImageAccepted t img s) := by
  unfold execImageAccepted
  dsimp only
  split
  · have hs : ∀ u : State, KeepsRecords img u (u.readSafety img) := fun u =>
      (KeepsRecords.refl img u).raiseStop.ite (KeepsRecords.refl img u)
    exact next_keeps ((RecordsKept.accept s img _).trans ((hs _).conclude.kept rfl))
  · exact next_keeps (RecordsKept.refl s)

theorem execFailed_keeps {r : Reading} : OutcomeKeeps s (execFailed r s) := by
  unfold execFailed
  split
  next h =>
    split
    · refine next_keeps (LeavesRecords.kept ⟨rfl, iff_of_false ?_ ?_, rfl, id, rfl, ⟨rfl, rfl, rfl⟩, id⟩)
      · exact fun e => by cases e
      · rw [h.1]; decide
    · exact next_keeps (RecordsKept.refl s)
  next => exact next_keeps (RecordsKept.refl s)

theorem execWarmReset_keeps {t : Nat} : OutcomeKeeps s (execWarmReset t s) := by
  unfold execWarmReset
  split
  · exact withImage_keeps (fun _ h => h.reach.warmReset)
  · exact next_keeps (RecordsKept.refl s)

/-! ## The line -/

theorem execRoundOpening_keeps {t n : Nat} : OutcomeKeeps s (execRoundOpening t n s) := by
  refine withImage_keeps (fun img h => ?_)
  exact (h.reach.onLe (fun x => by split <;> exact x)).ite h

theorem execRoundTimerExpiry_keeps {b : Bool} : OutcomeKeeps s (execRoundTimerExpiry b s) := by
  refine withImage_keeps (fun img h => ?_)
  dsimp only
  split
  · refine KeepsRecords.conclude ?_
    split
    · exact h.reach.onLe (fun x => x.openLocal.countIsolation)
    · split
      · exact h.reach.onLe Le.countsFit.expireJoined
      · exact h.reach.expireListen
      · exact h.reach
      · exact h.reach
  · exact h

theorem execListenTimerExpiry_keeps {b : Bool} : OutcomeKeeps s (execListenTimerExpiry b s) := by
  refine withImage_keeps (fun img h => ?_)
  dsimp only
  split
  · exact ((h.reach.onLe id).joinSilent.ite (h.reach.onLe id)).conclude
  · exact h

theorem execMarkSeen_keeps {w : Samples} : OutcomeKeeps s (execMarkSeen w s) := by
  refine withImage_keeps (fun img h => ?_)
  dsimp only
  split
  · refine (h.reach.onLe (fun x => ?_)).ite h
    split
    · exact x.markWithdrawn
    · exact x.markStands
  · exact h

theorem execVoteFieldStart_keeps : OutcomeKeeps s (execVoteFieldStart s) := by
  refine withImage_keeps (fun img h => ?_)
  dsimp only
  split
  · exact
      have h1 := h.reach.onLe id
      (h1.ite (h1.sampleVote.onLe Le.countsFit.driveVote)).ite h
  · exact h

theorem execVoteFieldComplete_keeps {v0 v1 v2 v3 : Samples} :
    OutcomeKeeps s (execVoteFieldComplete v0 v1 v2 v3 s) := by
  refine withImage_keeps (fun img h => ?_)
  dsimp only
  split
  · exact (h.reach.onLe (fun x => Le.countsFit.sawAll (l := s.le.judged _ _ _ _) x)
      ).handRound.videoStop.afterRound.conclude.ite h
  · exact h

theorem execLocalVoteFieldStart_keeps : OutcomeKeeps s (execLocalVoteFieldStart s) := by
  refine withImage_keeps (fun img h => ?_)
  split
  · exact (h.reach.onLe id).sampleVote.ite h
  · exact h

theorem execLocalVoteFieldComplete_keeps : OutcomeKeeps s (execLocalVoteFieldComplete s) := by
  refine withImage_keeps (fun img h => ?_)
  dsimp only
  split
  · exact (h.reach.onLe id).handLocal.conclude.ite h
  · exact h

theorem execLocalTalkSlotStart_keeps {k : Fin 3} : OutcomeKeeps s (execLocalTalkSlotStart k s) := by
  refine withImage_keeps (fun img h => ?_)
  dsimp only
  split
  · split
    · refine KeepsRecords.conclude ?_
      split
      · exact (h.reach.onLe id).receiveLocal
      · exact h.reach
    · exact h
  · exact h

theorem execLineFault_keeps {t : Nat} : OutcomeKeeps s (execLineFault t s) := by
  refine withImage_keeps (fun img h => ?_)
  exact h.reach.enterIsolated.conclude.ite h

theorem execBreakStart_keeps {p t : Nat} {w : Samples} : OutcomeKeeps s (execBreakStart p w s t) := by
  refine withImage_keeps (fun img h => ?_)
  refine (h.reach.onLe (fun x => ?_)).ite h
  dsimp only
  split
  · exact x
  · exact Le.countsFit.startBreak x

theorem execBreakSeen_keeps {t : Nat} : OutcomeKeeps s (execBreakSeen s t) := by
  refine withImage_keeps (fun img h => ?_)
  exact ((h.reach.onLe id).enterStopped.ite (h.reach.onLe id)).conclude.ite h

theorem execTalkSlotStart_keeps {k : Fin 3} : OutcomeKeeps s (execTalkSlotStart k s) := by
  refine withImage_keeps (fun img h => ?_)
  dsimp only
  split
  · have hs : ∀ (l : Le) (start : Nat) (f : TallyFields), l.countsFit →
        ((l.beginSend img k.val start f).sendOverBreak k.val).countsFit :=
      fun l start f x => Le.countsFit.sendOverBreak (l := l.beginSend img k.val start f) x
    exact ((h.reach.onLe (hs _ _ _)).ite h.reach).ite h
  · exact h

theorem execSendComplete_keeps : OutcomeKeeps s (execSendComplete s) := by
  refine withImage_keeps (fun img h => ?_)
  dsimp only
  split
  · exact h.reachSendEnd.onLe id
  · exact h

theorem execFailedSend_keeps : OutcomeKeeps s (execFailedSend s) := by
  refine withImage_keeps (fun img h => ?_)
  split
  · exact h.onLe Le.countsFit.failSend
  · exact h

theorem execCharacterReceived_keeps {p : Nat} {w : Samples} :
    OutcomeKeeps s (execCharacterReceived p w s) := by
  refine withImage_keeps (fun img h => ?_)
  dsimp only
  split
  · refine (h.reach.onLe (fun x => ?_)).ite h
    have x1 : ((s.le.sawBits w).endBreak p).countsFit := Le.countsFit.endBreak (Le.countsFit.sawBits x)
    split
    · exact Le.countsFit.decode x1
    · exact x1
  · exact h

theorem execTalkSlotEnd_keeps {k : Fin 3} : OutcomeKeeps s (execTalkSlotEnd k s) := by
  refine withImage_keeps (fun img h => ?_)
  dsimp only
  split
  · exact (h.reach.onLe (fun x => Le.countsFit.endSlot (last := slotStart k.val + 11) x)).ite h
  · exact h

theorem execReceiverResynchronised_keeps : OutcomeKeeps s (execReceiverResynchronised s) :=
  next_keeps (LeavesRecords.kept ⟨rfl, Iff.rfl, rfl, id, rfl, ⟨rfl, rfl, rfl⟩, id⟩)

/-! ## Messages -/

theorem execMalformedMessage_keeps : OutcomeKeeps s (execMalformedMessage s) := by
  refine withImage_keeps (fun img h => ?_)
  exact (h.onLe Le.countsFit.bumpBad).ite h

theorem execTallyArrival_keeps : OutcomeKeeps s (execTallyArrival s) := by
  refine withImage_keeps (fun img h => ?_)
  split
  · exact h.dropReceived.receiveTally.conclude
  · exact h

theorem execCallArrival_keeps : OutcomeKeeps s (execCallArrival s) := by
  refine withImage_keeps (fun img h => ?_)
  split
  · exact h.dropReceived.receiveCall.conclude
  · exact h

theorem execResumeArrival_keeps : OutcomeKeeps s (execResumeArrival s) := by
  refine withImage_keeps (fun img h => ?_)
  split
  · exact h.dropReceived.receiveResume.conclude
  · exact h

theorem execHaltArrival_keeps : OutcomeKeeps s (execHaltArrival s) := by
  refine withImage_keeps (fun img h => ?_)
  split
  · exact h.dropReceived.receiveHalt.conclude
  · exact h

theorem execTempoArrival_keeps : OutcomeKeeps s (execTempoArrival s) := by
  refine withImage_keeps (fun img h => ?_)
  split
  · exact h.dropReceived.receiveTempo.conclude
  · exact h

theorem execCameraArrival_keeps : OutcomeKeeps s (execCameraArrival s) := by
  refine withImage_keeps (fun img h => ?_)
  split
  · exact h.dropReceived.takeCamera.conclude
  · exact h

/-! ## The patch ports and the click -/

theorem execLoadStep_keeps {p : Port} {t : Nat} : OutcomeKeeps s (execLoadStep p s t) :=
  withImage_keeps (fun _ h => h.reach.onPorts Psq.told.loadStep)

theorem execScanStep_keeps {t : Nat} : OutcomeKeeps s (execScanStep s t) :=
  withImage_keeps (fun _ h => h.reach.onPorts Psq.told.scanStep)

theorem execActionSent_keeps {p : Port} {t : Nat} : OutcomeKeeps s (execActionSent p t s) := by
  refine withImage_keeps (fun img h => ?_)
  dsimp only
  split
  · exact (h.reach.onPsq Psq.told.actionSent).ite h
  · exact h

theorem execSettleExpiry_keeps {p : Port} : OutcomeKeeps s (execSettleExpiry p s) := by
  refine withImage_keeps (fun img h => ?_)
  split
  · exact h.reach.onPorts Psq.told.settleExpiry
  · exact h

theorem execBeatTimerExpiry_keeps : OutcomeKeeps s (execBeatTimerExpiry s) := by
  refine withImage_keeps (fun img h => ?_)
  split
  · exact h.reach.onCke
  · exact h

theorem execShadowTimerExpiry_keeps : OutcomeKeeps s (execShadowTimerExpiry s) := by
  refine withImage_keeps (fun img h => ?_)
  split
  · exact h.reach.onCke
  · exact h
  · exact h

theorem execSubTimerExpiry_keeps : OutcomeKeeps s (execSubTimerExpiry s) := by
  refine withImage_keeps (fun img h => ?_)
  dsimp only
  split
  · exact h.reach.onCke
  · exact h

/-! ## The picture -/

theorem execFrameSync_keeps {i : Source} {t : Nat} {r : Bool} : OutcomeKeeps s (execFrameSync i t r s) :=
  withImage_keeps (fun _ h => h.reach.syncFrame.flush)

theorem execFrameWindowExpiry_keeps {i : Source} : OutcomeKeeps s (execFrameWindowExpiry i s) := by
  refine withImage_keeps (fun img h => ?_)
  split
  · exact h.reach.windowExpiry.conclude
  · exact h

theorem execSlateTimerExpiry_keeps {r : Bool} : OutcomeKeeps s (execSlateTimerExpiry r s) := by
  refine withImage_keeps (fun img h => ?_)
  split
  · exact (h.reach.onVsl id).captionFrame
  · exact h

theorem execCaptionSent_keeps : OutcomeKeeps s (execCaptionSent s) := by
  unfold execCaptionSent
  split
  · exact next_keeps (LeavesRecords.kept ⟨rfl, Iff.rfl, rfl, id, rfl, ⟨rfl, rfl, rfl⟩, id⟩)
  · exact next_keeps (RecordsKept.refl s)

/-! ## The operator's inputs -/

theorem execStopPress_keeps {r : Bool} {t : Nat} : OutcomeKeeps s (execStopPress s r t) :=
  withPress_keeps (fun _ _ h => h.reach.raiseStop.conclude)

theorem execReleasePress_keeps {r : Bool} : OutcomeKeeps s (execReleasePress s r) :=
  withPress_keeps (fun _ _ h => h.release.flush)

theorem execGoPress_keeps {r : Bool} : OutcomeKeeps s (execGoPress s r) :=
  withPress_keeps (fun _ _ h => h.ite h.submitCall)

theorem execTapPress_keeps {r : Bool} {t : Nat} : OutcomeKeeps s (execTapPress t s r) :=
  withPress_keeps (fun _ _ h => h.reach.tap)

theorem execSafetyAssertion_keeps {t : Nat} : OutcomeKeeps s (execSafetyAssertion s t) := by
  unfold execSafetyAssertion
  dsimp only
  split
  · exact next_keeps (RecordsKept.refl s)
  · intro u hu
    exact ((LeavesRecords.onCon Iff.rfl id).kept).trans (withImage_keeps
      (fun _ h => h.reach.raiseStop.conclude) u hu)

theorem execSafetyDeassertion_keeps : OutcomeKeeps s (execSafetyDeassertion s) :=
  next_keeps (LeavesRecords.onCon Iff.rfl id).kept

/-- R196: without an image the contribution stays clear, whatever the line does; with one it follows. -/
theorem execAttendLineChange_keeps {a : Bool} : OutcomeKeeps s (execAttendLineChange a s) := by
  unfold execAttendLineChange
  cases hi : s.image with
  | none =>
    rw [withImage_none (s := s.onCon fun c => { c with attendLine := a }) _ hi]
    refine next_keeps (LeavesRecords.onCon Iff.rfl (fun h => ?_)).kept
    simpa [State.attendTold, hi] using h
  | some img =>
    rw [withImage_some (s := s.onCon fun c => { c with attendLine := a }) _ hi]
    exact next_keeps (KeepsRecords.kept (img := img)
      ⟨rfl, Iff.rfl, id, id, fun _ => Con.told_judgeAttend _, id⟩ hi)

/-! ## The console -/

theorem execConsoleStatus_keeps : OutcomeKeeps s (execConsoleStatus s) :=
  next_keeps (reply_keeps s _ _ _)

theorem execOverflowClear_keeps : OutcomeKeeps s (execOverflowClear s) := by
  have h : s.con.clearOverflow.loader = s.con.loader ∧ s.con.clearOverflow.attendLine = s.con.attendLine ∧
      s.con.clearOverflow.attendFlag = s.con.attendFlag ∧
      s.con.clearOverflow.attendPosted = s.con.attendPosted := by
    unfold Con.clearOverflow
    split <;> exact ⟨rfl, rfl, rfl, rfl⟩
  obtain ⟨hl, h1, h2, h3⟩ := h
  refine next_keeps (LeavesRecords.onCon (by rw [hl]) (fun x => ?_)).kept
  simpa [State.attendTold, h1, h2, h3] using x

theorem execConsolePosition_keeps : OutcomeKeeps s (execConsolePosition s) :=
  withShow_keeps (fun _ h => h.onCon Iff.rfl id)

theorem execConsoleNotice_keeps : OutcomeKeeps s (execConsoleNotice s) := by
  unfold execConsoleNotice State.selectNotice
  split <;> exact next_keeps (reply_keeps s _ _ _)

theorem execNoticeRemoval_keeps : OutcomeKeeps s (execNoticeRemoval s) := by
  have h : s.con.removeNotice.loader = s.con.loader ∧ s.con.removeNotice.attendLine = s.con.attendLine ∧
      s.con.removeNotice.attendFlag = s.con.attendFlag ∧
      s.con.removeNotice.attendPosted = s.con.attendPosted := by
    unfold Con.removeNotice
    split <;> exact ⟨rfl, rfl, rfl, rfl⟩
  obtain ⟨hl, h1, h2, h3⟩ := h
  refine next_keeps (LeavesRecords.onCon (by rw [hl]) (fun x => ?_)).kept
  simpa [State.attendTold, h1, h2, h3] using x

theorem execConsoleGo_keeps {x : BitVec 16} {w : Byte} : OutcomeKeeps s (execConsoleGo x w s) :=
  withShow_keeps (fun _ h => h.takeGo)

theorem execConsoleStop_keeps {d : Byte} {t : Nat} : OutcomeKeeps s (execConsoleStop d s t) :=
  withShow_keeps (fun _ h => h.reach.raiseStop.conclude.reply)

theorem execConsoleRelease_keeps : OutcomeKeeps s (execConsoleRelease s) :=
  withShow_keeps (fun _ h => h.release.flush.reply)

theorem execConsoleResume_keeps {c b : BitVec 16} {n m : Byte} :
    OutcomeKeeps s (execConsoleResume c b n m s) :=
  withShow_keeps (fun _ h => h.requestResume)

theorem execConsoleCamera_keeps {x : Byte} : OutcomeKeeps s (execConsoleCamera x s) := by
  refine withShow_keeps (fun img h => ?_)
  split
  · exact h.submit
  · exact h.reply

theorem execConsoleTempo_keeps {x : BitVec 16} {w : Byte} : OutcomeKeeps s (execConsoleTempo x w s) := by
  refine withShow_keeps (fun img h => ?_)
  split
  · exact h.submit
  · exact h.reply

theorem execConsoleAttend_keeps {a : Byte} : OutcomeKeeps s (execConsoleAttend a s) := by
  refine withShow_keeps (fun img h => ?_)
  split
  · refine KeepsRecords.reply (h.onCon ?_ ?_)
    · exact Iff.rfl
    · exact fun _ => Con.told_judgeAttend _
  · exact h.reply

theorem execConsoleRestart_keeps : OutcomeKeeps s (execConsoleRestart s) :=
  withShow_keeps (fun _ h => (h.onCon Iff.rfl id).reply)

theorem execUnknownCommand_keeps {c : Byte} : OutcomeKeeps s (execUnknownCommand c s) :=
  next_keeps (reply_keeps s _ _ _)

/-! ## The step -/

/-- Every command keeps each of the five properties. -/
theorem exec_keeps (c : Instr) : OutcomeKeeps s (exec c s) := by
  cases c with
  | coldReset => exact execColdReset_keeps
  | byteArrival b => exact execByteArrival_keeps
  | imageAccepted t img => exact execImageAccepted_keeps
  | failed r => exact execFailed_keeps
  | roundOpening t n => exact execRoundOpening_keeps
  | roundTimerExpiry b => exact execRoundTimerExpiry_keeps
  | listenTimerExpiry b => exact execListenTimerExpiry_keeps
  | markSeen w => exact execMarkSeen_keeps
  | voteFieldStart => exact execVoteFieldStart_keeps
  | localVoteFieldStart => exact execLocalVoteFieldStart_keeps
  | voteFieldComplete v0 v1 v2 v3 => exact execVoteFieldComplete_keeps
  | localVoteFieldComplete => exact execLocalVoteFieldComplete_keeps
  | lineFault t => exact execLineFault_keeps
  | breakStart p w t => exact execBreakStart_keeps
  | breakSeen t => exact execBreakSeen_keeps
  | talkSlotStart k => exact execTalkSlotStart_keeps
  | localTalkSlotStart k => exact execLocalTalkSlotStart_keeps
  | sendComplete => exact execSendComplete_keeps
  | failedSend => exact execFailedSend_keeps
  | talkSlotEnd k => exact execTalkSlotEnd_keeps
  | malformedMessage => exact execMalformedMessage_keeps
  | tallyArrival => exact execTallyArrival_keeps
  | callArrival => exact execCallArrival_keeps
  | resumeArrival => exact execResumeArrival_keeps
  | haltArrival => exact execHaltArrival_keeps
  | tempoArrival => exact execTempoArrival_keeps
  | cameraArrival => exact execCameraArrival_keeps
  | loadStep p t => exact execLoadStep_keeps
  | scanStep t => exact execScanStep_keeps
  | actionSent p t => exact execActionSent_keeps
  | settleExpiry p => exact execSettleExpiry_keeps
  | beatTimerExpiry => exact execBeatTimerExpiry_keeps
  | shadowTimerExpiry => exact execShadowTimerExpiry_keeps
  | subTimerExpiry => exact execSubTimerExpiry_keeps
  | frameSync i t r => exact execFrameSync_keeps
  | frameWindowExpiry i => exact execFrameWindowExpiry_keeps
  | slateTimerExpiry r => exact execSlateTimerExpiry_keeps
  | captionSent => exact execCaptionSent_keeps
  | stopPress r t => exact execStopPress_keeps
  | releasePress r => exact execReleasePress_keeps
  | goPress r => exact execGoPress_keeps
  | tapPress t r => exact execTapPress_keeps
  | safetyAssertion t => exact execSafetyAssertion_keeps
  | safetyDeassertion => exact execSafetyDeassertion_keeps
  | attendLineChange a => exact execAttendLineChange_keeps
  | consoleStatus => exact execConsoleStatus_keeps
  | overflowClear => exact execOverflowClear_keeps
  | consolePosition => exact execConsolePosition_keeps
  | consoleNotice => exact execConsoleNotice_keeps
  | noticeRemoval => exact execNoticeRemoval_keeps
  | consoleGo x w => exact execConsoleGo_keeps
  | consoleStop d t => exact execConsoleStop_keeps
  | consoleRelease => exact execConsoleRelease_keeps
  | consoleResume c b n m => exact execConsoleResume_keeps
  | consoleCamera x => exact execConsoleCamera_keeps
  | consoleTempo x w => exact execConsoleTempo_keeps
  | consoleAttend a => exact execConsoleAttend_keeps
  | consoleRestart => exact execConsoleRestart_keeps
  | unknownCommand c => exact execUnknownCommand_keeps (c := c)
  | warmReset t => exact execWarmReset_keeps
  | characterReceived p w => exact execCharacterReceived_keeps
  | receiverResynchronised => exact execReceiverResynchronised_keeps

end

theorem step_keeps {s t : State} (h : step s = .next t) : RecordsKept s t := by
  unfold step at h
  split at h
  · exact next_keeps (RecordsKept.refl s) t h
  · next c rest hp =>
    have k : RecordsKept { s with pending := rest } t := exec_keeps c t h
    exact ⟨k.readiness, k.camfail, k.attend, k.image, k.counts⟩

/-- Settles O60: every command keeps each of the five properties, by the relation that each operation of its event
extends. -/
theorem stepKeepsRecords : Obligations.StepKeepsRecords := by
  unfold Obligations.StepKeepsRecords
  exact ⟨fun _ _ h g => (step_keeps g).readiness h, fun _ _ h g => (step_keeps g).camfail h,
    fun _ _ h g => (step_keeps g).attend h, fun _ _ h g => (step_keeps g).image h,
    fun _ _ h g => (step_keeps g).counts h⟩

end Sys2Proof.Machine
end

section
/-! The loader (Chapter 1): the cold reset, the boot bytes, the image checks, FAILED and IMAGE_ACCEPTED. -/

namespace Sys2Proof.Machine

/-! ## Cold reset (R12) -/

/-- Settles O2: the reset values of each block are those of State.reset, and COLD_RESET answers them. -/
theorem coldResetValues : Obligations.ColdResetValues := by
  refine ⟨?_, ?_, fun p => ?_, ?_, fun i => ?_, ?_, fun _ => rfl⟩
  · exact ⟨rfl, rfl, rfl, rfl, rfl, rfl, rfl, rfl, rfl, fun b => by cases b <;> rfl, rfl, rfl, rfl, rfl,
      rfl, rfl, rfl, rfl, rfl, rfl, rfl, rfl, rfl⟩
  · exact ⟨rfl, rfl, rfl, rfl, rfl, rfl, rfl, rfl, rfl, rfl, rfl, rfl, rfl, rfl, rfl, rfl⟩
  · cases p <;> exact ⟨rfl, rfl, rfl, rfl⟩
  · exact ⟨rfl, rfl, rfl, rfl, rfl, rfl, rfl, rfl, rfl, rfl, rfl, rfl⟩
  · cases i <;> rfl
  · exact ⟨rfl, rfl, rfl, rfl, rfl, rfl, rfl⟩

/-- Settles O56: at reset no record is posted but RESTART, no queue holds a message, and no image is held. -/
theorem resetKeepsInvariants : Obligations.ResetKeepsInvariants := by
  have hqueue : State.reset.le.kinds = [] := rfl
  refine ⟨⟨?_, rfl⟩, ⟨rfl, fun h => ?_⟩, ?_, rfl, rfl, rfl, ⟨?_, fun _ => rfl⟩, Le.countsFit_cold⟩
  · decide
  · cases h
  · unfold State.queueOrdered
    rw [hqueue]
    simp
  · exact iff_of_false (fun h => by cases h) (fun h => by cases h)

/-! ## Boot bytes (R13) -/

theorem lengthInRange_iff (n : Nat) : lengthInRange n = true ↔ 64 ≤ n ∧ n ≤ 32768 := by
  simp [lengthInRange]

theorem Con.declare_declared {c : Con} {n : Nat} (h : c.declared = some n) : c.declare = c := by
  simp [Con.declare, h]

theorem Con.endRead_undeclared {c : Con} (h : c.declared = none) : c.endRead = c := by
  simp [Con.endRead, h]

theorem Con.endRead_inRange {c : Con} {n : Nat} (h : c.declared = some n) (hn : 64 ≤ n ∧ n ≤ 32768) :
    c.endRead = if n ≤ c.received.length then { c with loader := .checking } else c := by
  simp [Con.endRead, h, (lengthInRange_iff n).2 hn]

theorem Con.endRead_outOfRange {c : Con} {n : Nat} (h : c.declared = some n)
    (hn : ¬ (64 ≤ n ∧ n ≤ 32768)) :
    c.endRead = { c with loader := .checking, lengthFault := true } := by
  have hr : lengthInRange n = false := Bool.eq_false_iff.2 (fun e => hn ((lengthInRange_iff n).1 e))
  simp [Con.endRead, h, hr]

theorem exec_byteArrival {s : State} (b : Byte) (h : s.con.loader = .loading) :
    exec (.byteArrival b) s = .next { s with con := s.con.takeByte b } := by
  show execByteArrival b s = _
  simp only [execByteArrival, h, if_true]
  rfl

/-- R13: a byte of the image after the declared length. -/
theorem Con.takeByte_declared {c : Con} {n : Nat} (b : Byte) (hl : c.loader = .loading)
    (hd : c.declared = some n) (hn : 64 ≤ n ∧ n ≤ 32768) (hk : c.received.length < n) :
    c.takeByte b = { c with
      received := c.received ++ [b]
      sum := if c.received.length + 2 < n then c.sum + BitVec.ofNat 16 b.toNat else c.sum
      loader := if c.received.length + 1 = n then .checking else .loading } := by
  have ha : (c.addByte b).declared = some n := hd
  have hlast : n ≤ c.received.length + 1 ↔ c.received.length + 1 = n := by omega
  rw [Con.takeByte, Con.declare_declared ha, Con.endRead_inRange ha hn]
  simp only [Con.addByte, hd, List.length_append, List.length_singleton, hlast, decide_eq_true_eq]
  split
  · rfl
  · rw [← hl]

/-- R13: the first byte of the declared length. -/
theorem Con.takeByte_first {c : Con} (b : Byte) (hd : c.declared = none) (hr : c.received = []) :
    c.takeByte b = { c with received := [b], sum := c.sum + BitVec.ofNat 16 b.toNat } := by
  have he : (c.addByte b).declare = c.addByte b := by
    simp [Con.declare, Con.addByte, hd, hr]
  rw [Con.takeByte, he, Con.endRead_undeclared (c := c.addByte b) hd]
  simp [Con.addByte, hd, hr]

/-- R13: the second byte gives the declared length. -/
theorem Con.takeByte_second {c : Con} {hi : Byte} (lo : Byte) (hl : c.loader = .loading)
    (hd : c.declared = none) (hr : c.received = [hi]) :
    c.takeByte lo = { c with
      received := [hi, lo], sum := c.sum + BitVec.ofNat 16 lo.toNat
      declared := some (wordOf hi lo)
      loader := if 64 ≤ wordOf hi lo ∧ wordOf hi lo ≤ 32768 then .loading else .checking
      lengthFault := if 64 ≤ wordOf hi lo ∧ wordOf hi lo ≤ 32768 then c.lengthFault else true } := by
  have he : (c.addByte lo).declare = { c with
      received := [hi, lo], sum := c.sum + BitVec.ofNat 16 lo.toNat
      declared := some (wordOf hi lo) } := by
    simp [Con.declare, Con.addByte, hd, hr]
  rw [Con.takeByte, he]
  by_cases hn : 64 ≤ wordOf hi lo ∧ wordOf hi lo ≤ 32768
  · have hk : ¬ wordOf hi lo ≤ 2 := by omega
    rw [Con.endRead_inRange rfl hn]
    simp [hn, hk, hl]
  · rw [Con.endRead_outOfRange rfl hn]
    simp [hn]

/-- Settles O3, by how far the declared length has come. -/
theorem bootBytesAreTaken : Obligations.BootBytesAreTaken := by
  refine ⟨fun s b n hl hd h1 h2 hk => ?_, fun s b hl hd hr => ?_, fun s hi lo hl hd hr => ?_⟩
  · rw [exec_byteArrival b hl, Con.takeByte_declared b hl hd ⟨h1, h2⟩ hk]
  · rw [exec_byteArrival b hl, Con.takeByte_first b hd hr]
  · rw [exec_byteArrival lo hl, Con.takeByte_second lo hl hd hr]
    rfl

/-! ## FAILED (R15) -/

/-- R193: the one posting of a step reaches the queue. -/
theorem State.postNotice_flush (o : Origin) (n : Notice) (s : State) (h : s.con.together = []) :
    (s.postNotice o n).flush = { s with con := s.con.append n } := by
  rw [State.postNotice_first o n s h]
  simp only [State.flush, State.onCon, Con.takePostings_one s.con _ h]

/-- Settles O5: the one posting of the step reaches the queue, and another reading is no event. -/
theorem failedLoadPostsImage : Obligations.FailedLoadPostsImage := by
  refine ⟨fun s reading f hl hr hf ht => ?_, fun s reading hr => ?_⟩
  · show execFailed reading s = _
    have hr' := (s.readsAs_iff reading).2 hr
    simp only [execFailed, hl, hr', hf, and_self, if_true]
    rw [State.postNotice_flush .con (imageNotice reading f)
      ((s.recordReading reading).onCon fun c => { c with loader := .failed }) ht]
    rfl
  · show execFailed reading s = _
    have hr' : s.readsAs reading = false := Bool.eq_false_iff.2 (fun e => hr ((s.readsAs_iff reading).1 e))
    simp [execFailed, hr']

end Sys2Proof.Machine
end

section
/-! The checks of the image (R14): what each test of a field says, and the first check that fails. -/

namespace Sys2Proof.Machine

/-! ## The tests of fields (R2 to R11) -/

theorem within_iff (lo n hi : Nat) : within lo n hi = true ↔ lo ≤ n ∧ n ≤ hi := by simp [within]

theorem rampGood_iff (r : RampPart) :
    rampGood r = true ↔ 300 ≤ r.target ∧ r.target ≤ 3000 ∧ 1 ≤ r.length ∧ r.length ≤ 64 := by
  simp [rampGood, within_iff, and_assoc]

theorem vampFieldsGood_iff (v : VampPart) :
    vampFieldsGood v = true ↔ 1 ≤ v.length ∧ v.length ≤ 16 ∧ v.repeats ≤ 255 := by
  simp [vampFieldsGood, within_iff, and_assoc]

theorem clickGood_iff (p : ClickPart) :
    clickGood p = true ↔ 300 ≤ p.tempo ∧ p.tempo ≤ 3000 ∧ 1 ≤ p.meter ∧ p.meter ≤ 16 ∧
      1 ≤ p.subdivision ∧ p.subdivision ≤ 4 ∧
      (∀ r, p.ramp = some r → 300 ≤ r.target ∧ r.target ≤ 3000 ∧ 1 ≤ r.length ∧ r.length ≤ 64) ∧
      ∀ v, p.vamp = some v → 1 ≤ v.length ∧ v.length ≤ 16 ∧ v.repeats ≤ 255 := by
  simp [clickGood, within_iff, Option.all_eq_true, rampGood_iff, vampFieldsGood_iff, and_assoc]

theorem cueGood_iff (c : Cue) : cueGood c = true ↔ c.inRange := by
  simp [cueGood, Cue.inRange, within_iff, Option.all_eq_true, clickGood_iff, Config.lastBar, and_assoc]

theorem actionGood_iff (a : PatchAction) : actionGood a = true ↔ a.inRange := by
  simp [actionGood, PatchAction.inRange, within_iff, Option.all_eq_true, Option.isSome_iff_ne_none,
    and_assoc]

theorem showGood_iff (img : Image) :
    showGood img = true ↔ img.patience ≤ 63 ∧ 16 ≤ img.resumePatience ∧ img.resumePatience ≤ 255 ∧
      1 ≤ img.ranking.length ∧ img.ranking.length ≤ 4 ∧ (∀ k ∈ img.ranking, k < Config.stations) ∧
      ∀ c ∈ img.cues, c.inRange := by
  simp [showGood, within_iff, cueGood_iff, and_assoc]

theorem stationGood_iff (img : Image) :
    stationGood img = true ↔ img.station < Config.stations ∧ img.pool.length ≤ 1024 ∧
      (∀ a ∈ img.pool, a.inRange) ∧ (∀ e ∈ img.entries, e.video ≠ some .other) ∧
      100 ≤ img.frameInterval ∧ img.frameInterval ≤ 500 := by
  simp [stationGood, within_iff, actionGood_iff, entryGood, and_assoc]

theorem fieldsGood_iff (img : Image) : (showGood img && stationGood img) = true ↔ img.inRange := by
  rw [Bool.and_eq_true, showGood_iff, stationGood_iff]
  simp only [Image.inRange, Config.stations, and_assoc]

theorem ratesGood_iff (img : Image) : ratesGood img = true ↔ img.passes .rate := by
  have hp : (∀ p, img.portRates.get p = 19200 ∨ img.portRates.get p = 38400 ∨
      img.portRates.get p = 57600 ∨ img.portRates.get p = 115200) ↔
      (img.portRates.a = 19200 ∨ img.portRates.a = 38400 ∨ img.portRates.a = 57600 ∨
        img.portRates.a = 115200) ∧
      (img.portRates.b = 19200 ∨ img.portRates.b = 38400 ∨ img.portRates.b = 57600 ∨
        img.portRates.b = 115200) :=
    ⟨fun h => ⟨h .a, h .b⟩, fun h p => match p with | .a => h.1 | .b => h.2⟩
  simp [ratesGood, Image.passes, hp, and_assoc]

theorem badOrder_iff (img : Image) (k : Nat) : badOrder img k = true ↔ ¬ img.ordered k := by
  simp [badOrder, Image.ordered]

theorem patchesCue0_iff (e : CueEntry) :
    patchesCue0 e = false ↔ (e.cue = 0 → ∀ p, e.patch = some p → p.count = 0) := by
  cases h : e.patch <;> simp [patchesCue0, h]

theorem badCue0_iff (img : Image) : badCue0 img = false ↔ img.passes .cue0 := by
  simp [badCue0, Image.passes, Image.isFree, patchesCue0_iff, and_assoc]

theorem badCueRef_iff (img : Image) (e : CueEntry) : badCueRef img e = true ↔ ¬ img.names e := by
  rw [badCueRef, Bool.or_eq_true, decide_eq_true_eq, decide_eq_true_eq]
  unfold Image.names Image.cueCount timesNamed
  omega

theorem badPatchRef_iff (img : Image) (e : CueEntry) : badPatchRef img e = true ↔ ¬ img.reaches e := by
  unfold badPatchRef Image.reaches
  cases e.patch with
  | none => simp
  | some p =>
    simp only [Bool.and_eq_true, Bool.or_eq_true, decide_eq_true_eq, Option.some.injEq, forall_eq']
    omega

theorem badVamp_iff (img : Image) (k : Nat) : badVamp img k = true ↔ ¬ img.vampFits k := by
  unfold badVamp Image.vampFits
  cases img.clickOf k with
  | none => simp
  | some part =>
    cases hv : part.vamp with
    | none => simp [hv]
    | some v =>
      have hfits : (∀ p w, some part = some p → p.vamp = some w →
          img.startBar k ≤ w.start ∧ w.start + w.length - 1 ≤ 9999) ↔
          img.startBar k ≤ v.start ∧ v.start + v.length - 1 ≤ 9999 :=
        ⟨fun h => h part v rfl hv, fun h p w hp hw => by cases hp; cases hv.symm.trans hw; exact h⟩
      rw [hfits]
      simp only [hv, Bool.or_eq_true, decide_eq_true_eq]
      simp only [vampLast, Config.lastBar]
      omega

theorem vampCovers_false_iff (v : VampPart) (bar : Nat) :
    vampCovers v bar = false ↔ bar < v.start ∨ v.start + v.length - 1 < bar := by
  rw [vampCovers, decide_eq_false_iff_not, vampLast]
  omega

theorem barInVamp_false_iff {img : Image} {k : Nat} {part : ClickPart} (bar : Nat)
    (h : img.clickOf k = some part) : barInVamp img k bar = false ↔
      ∀ v, part.vamp = some v → bar < v.start ∨ v.start + v.length - 1 < bar := by
  cases hv : part.vamp <;> simp [barInVamp, h, hv, vampCovers_false_iff]

theorem badAutoGo_iff (img : Image) (k : Nat) : badAutoGo img k = true ↔ ¬ img.autoGoFits k := by
  unfold badAutoGo Image.autoGoFits
  cases img.autoGoOf k with
  | none => simp
  | some g =>
    cases hc : img.clickOf k with
    | none => simp
    | some part =>
      rw [← Bool.not_eq_false]
      refine not_congr ?_
      simp [within_iff, barInVamp_false_iff g.bar hc, and_assoc]

theorem roleFault_none_iff (img : Image) : roleFault img = none ↔ img.passes .role := by
  show roleFault img = none ↔ (img.roles.caller = true → img.isCallerStation img.station = true) ∧
    (img.roles.videoCritical = true → img.roles.video = true)
  unfold roleFault
  split
  · simp_all
  · split
    · simp_all
    · simp_all

theorem roleFault_some {img : Image} {d : Nat} (h : roleFault img = some d) :
    d = if img.roles.caller = true ∧ img.callers.getLsbD img.station = false then 1 else 2 := by
  unfold roleFault Image.isCallerStation at h
  split at h
  next hc => simp_all
  next hc =>
    split at h
    · simp_all
    · cases h

theorem failoverGood_iff (img : Image) : failoverGood img = true ↔ img.passes .failover := by
  have hs : (∀ x : Source, some x ∈ img.failover) ↔
      some .front ∈ img.failover ∧ some .lowlight ∈ img.failover ∧ some .wide ∈ img.failover :=
    ⟨fun h => ⟨h _, h _, h _⟩,
      fun h x => match x with | .front => h.1 | .lowlight => h.2.1 | .wide => h.2.2⟩
  simp [failoverGood, Image.passes, hs]

/-! ## The rank that repeats (R2, R15) -/

theorem take_succ_nodup_iff (l : List Nat) (k : Nat) (h : k < l.length) :
    (l.take (k + 1)).Nodup ↔ (l.take k).Nodup ∧ l.getD k 0 ∉ l.take k := by
  have hd : l.getD k 0 = l[k] := by
    rw [List.getD_eq_getElem?_getD, List.getElem?_eq_getElem h, Option.getD_some]
  rw [List.take_succ_eq_append_getElem h, hd, (List.perm_append_singleton _ _).nodup_iff, List.nodup_cons, and_comm]

/-- While no station repeats an earlier one, the ranks so far are distinct. -/
theorem take_nodup_of_fresh (l : List Nat) (k : Nat) (hk : k ≤ l.length)
    (h : ∀ j, j < k → l.getD j 0 ∉ l.take j) : (l.take k).Nodup := by
  induction k with
  | zero => simp
  | succ k ih =>
    rw [take_succ_nodup_iff l k hk]
    exact ⟨ih (by omega) (fun j hj => h j (by omega)), h k (by omega)⟩

theorem repeatedRank_none_iff (l : List Nat) : repeatedRank l = none ↔ l.Nodup := by
  simp only [repeatedRank, Option.map_eq_none_iff, List.find?_eq_none, List.mem_range,
    List.contains_iff_mem]
  constructor
  · intro h
    have := take_nodup_of_fresh l l.length (Nat.le_refl _) h
    rwa [List.take_length] at this
  · intro h j hj
    have := h.sublist (List.take_sublist (j + 1) l)
    exact ((take_succ_nodup_iff l j hj).1 this).2

theorem repeatedRank_some {l : List Nat} {d : Nat} (h : repeatedRank l = some d) :
    1 ≤ d ∧ (l.take (d - 1)).Nodup ∧ ¬ (l.take d).Nodup := by
  simp only [repeatedRank, Option.map_eq_some_iff, List.find?_range_eq_some, List.contains_iff_mem,
    List.mem_range] at h
  obtain ⟨k, ⟨hrep, hk, hfresh⟩, rfl⟩ := h
  refine ⟨by omega, take_nodup_of_fresh l k (by omega) (fun j hj => ?_), fun hn => ?_⟩
  · simpa using hfresh j hj
  · exact ((take_succ_nodup_iff l k hk).1 hn).2 hrep

/-! ## The lowest failing cue (R15) -/

theorem firstCue_none_iff (img : Image) (bad : Nat → Bool) :
    firstCue img bad = none ↔ ∀ k, k < img.cues.length → bad k = false := by
  simp [firstCue, Image.cueCount]

theorem firstCue_some {img : Image} {bad : Nat → Bool} {k : Nat} (h : firstCue img bad = some k) :
    k < img.cues.length ∧ bad k = true ∧ ∀ j, j < k → bad j = false := by
  simp only [firstCue, Image.cueCount, List.find?_range_eq_some, List.mem_range] at h
  obtain ⟨hb, hk, hj⟩ := h
  exact ⟨hk, hb, fun j x => by simpa using hj j x⟩

theorem lowestEntry_none_iff (img : Image) (bad : CueEntry → Bool) :
    lowestEntry img bad = none ↔ ∀ e ∈ img.entries, bad e = false := by
  simp [lowestEntry, List.min?_eq_none_iff]

theorem lowestEntry_some {img : Image} {bad : CueEntry → Bool} {k : Nat}
    (h : lowestEntry img bad = some k) :
    (∃ e ∈ img.entries, e.cue = k ∧ bad e = true) ∧ ∀ e ∈ img.entries, bad e = true → k ≤ e.cue := by
  rw [lowestEntry, List.min?_eq_some_iff] at h
  obtain ⟨hm, hl⟩ := h
  simp only [List.mem_map, List.mem_filter] at hm hl
  obtain ⟨e, ⟨he, hb⟩, rfl⟩ := hm
  exact ⟨⟨e, he, rfl, hb⟩, fun x hx hbx => hl _ ⟨x, ⟨hx, hbx⟩, rfl⟩⟩

/-! ## One check per code (R14) -/

/-- The codes of the fields in their order. -/
def fieldFaults : List LoadFault :=
  [.rate, .period, .cueCount, .field, .order, .cue0, .cueRef, .patchRef, .vamp, .autoGo, .ranking,
    .role, .failover]

/-- The check of a code; none for the three that are made on the bytes. -/
def fieldCheck (img : Image) : LoadFault → Option Failure
  | .length | .sum | .format => none
  | .rate => plainFailure .rate (ratesGood img)
  | .period => plainFailure .period (within 48 img.period 255)
  | .cueCount => plainFailure .cueCount (within 2 img.cueCount 512)
  | .field => plainFailure .field (showGood img && stationGood img)
  | .order => cueFailure .order (firstCue img (badOrder img))
  | .cue0 => plainFailure .cue0 (!badCue0 img)
  | .cueRef => cueFailure .cueRef (lowestEntry img (badCueRef img))
  | .patchRef => cueFailure .patchRef (lowestEntry img (badPatchRef img))
  | .vamp => cueFailure .vamp (firstCue img (badVamp img))
  | .autoGo => cueFailure .autoGo (firstCue img (badAutoGo img))
  | .ranking => detailFailure .ranking (repeatedRank img.ranking)
  | .role => detailFailure .role (roleFault img)
  | .failover => plainFailure .failover (failoverGood img)

theorem fieldChecks_eq (img : Image) : fieldChecks img = fieldFaults.map (fieldCheck img) := rfl

theorem plainFailure_none_iff (g : LoadFault) (good : Bool) :
    plainFailure g good = none ↔ good = true := by cases good <;> simp [plainFailure]

theorem cueFailure_none_iff (g : LoadFault) (cue : Option Nat) :
    cueFailure g cue = none ↔ cue = none := Option.map_eq_none_iff

theorem detailFailure_none_iff (g : LoadFault) (d : Option Nat) :
    detailFailure g d = none ↔ d = none := Option.map_eq_none_iff

theorem plainFailure_some {g : LoadFault} {good : Bool} {f : Failure}
    (h : plainFailure g good = some f) : f = { fault := g, cue := 0, detail := 0 } := by
  cases good
  · exact (Option.some.inj h).symm
  · cases h

theorem cueFailure_some {g : LoadFault} {cue : Option Nat} {f : Failure}
    (h : cueFailure g cue = some f) : cue = some f.cue ∧ f = { fault := g, cue := f.cue, detail := 0 } := by
  obtain ⟨k, hk, rfl⟩ := Option.map_eq_some_iff.1 h
  exact ⟨hk, rfl⟩

theorem detailFailure_some {g : LoadFault} {d : Option Nat} {f : Failure}
    (h : detailFailure g d = some f) :
    d = some f.detail ∧ f = { fault := g, cue := 0, detail := f.detail } := by
  obtain ⟨k, hk, rfl⟩ := Option.map_eq_some_iff.1 h
  exact ⟨hk, rfl⟩

/-- R14: the check of a code passes exactly when its condition holds. -/
theorem fieldCheck_none_iff (img : Image) (g : LoadFault) : fieldCheck img g = none ↔ img.passes g := by
  cases g with
  | length => exact iff_of_true rfl trivial
  | sum => exact iff_of_true rfl trivial
  | format => exact iff_of_true rfl trivial
  | rate => exact (plainFailure_none_iff _ _).trans (ratesGood_iff img)
  | period => exact (plainFailure_none_iff _ _).trans (within_iff _ _ _)
  | cueCount => exact (plainFailure_none_iff _ _).trans (within_iff _ _ _)
  | field => exact (plainFailure_none_iff _ _).trans (fieldsGood_iff img)
  | order =>
    refine (cueFailure_none_iff _ _).trans ((firstCue_none_iff _ _).trans ?_)
    simp [Image.passes, ← Bool.not_eq_true, badOrder_iff]
  | cue0 => exact (plainFailure_none_iff _ _).trans (Bool.not_eq_true' _ ▸ badCue0_iff img)
  | cueRef =>
    refine (cueFailure_none_iff _ _).trans ((lowestEntry_none_iff _ _).trans ?_)
    simp [Image.passes, ← Bool.not_eq_true, badCueRef_iff]
  | patchRef =>
    refine (cueFailure_none_iff _ _).trans ((lowestEntry_none_iff _ _).trans ?_)
    simp [Image.passes, ← Bool.not_eq_true, badPatchRef_iff]
  | vamp =>
    refine (cueFailure_none_iff _ _).trans ((firstCue_none_iff _ _).trans ?_)
    simp [Image.passes, ← Bool.not_eq_true, badVamp_iff]
  | autoGo =>
    refine (cueFailure_none_iff _ _).trans ((firstCue_none_iff _ _).trans ?_)
    simp [Image.passes, ← Bool.not_eq_true, badAutoGo_iff]
  | ranking => exact (detailFailure_none_iff _ _).trans (repeatedRank_none_iff _)
  | role => exact (detailFailure_none_iff _ _).trans (roleFault_none_iff img)
  | failover => exact (plainFailure_none_iff _ _).trans (failoverGood_iff img)

/-- R14: a failing check names its own code; only the checks on cues and entries name a cue, and only RANKING and ROLE
give a detail. -/
theorem fieldCheck_some {img : Image} {g : LoadFault} {f : Failure} (h : fieldCheck img g = some f) :
    f.fault = g ∧ (g ∉ [LoadFault.order, .vamp, .autoGo, .cueRef, .patchRef] → f.cue = 0) ∧
      (g ∉ [LoadFault.role, .ranking] → f.detail = 0) := by
  cases g with
  | length => cases h
  | sum => cases h
  | format => cases h
  | rate => rw [plainFailure_some h]; exact ⟨rfl, fun _ => rfl, fun _ => rfl⟩
  | period => rw [plainFailure_some h]; exact ⟨rfl, fun _ => rfl, fun _ => rfl⟩
  | cueCount => rw [plainFailure_some h]; exact ⟨rfl, fun _ => rfl, fun _ => rfl⟩
  | field => rw [plainFailure_some h]; exact ⟨rfl, fun _ => rfl, fun _ => rfl⟩
  | order => rw [(cueFailure_some h).2]; exact ⟨rfl, fun n => absurd (by simp) n, fun _ => rfl⟩
  | cue0 => rw [plainFailure_some h]; exact ⟨rfl, fun _ => rfl, fun _ => rfl⟩
  | cueRef => rw [(cueFailure_some h).2]; exact ⟨rfl, fun n => absurd (by simp) n, fun _ => rfl⟩
  | patchRef => rw [(cueFailure_some h).2]; exact ⟨rfl, fun n => absurd (by simp) n, fun _ => rfl⟩
  | vamp => rw [(cueFailure_some h).2]; exact ⟨rfl, fun n => absurd (by simp) n, fun _ => rfl⟩
  | autoGo => rw [(cueFailure_some h).2]; exact ⟨rfl, fun n => absurd (by simp) n, fun _ => rfl⟩
  | ranking => rw [(detailFailure_some h).2]; exact ⟨rfl, fun _ => rfl, fun n => absurd (by simp) n⟩
  | role => rw [(detailFailure_some h).2]; exact ⟨rfl, fun _ => rfl, fun n => absurd (by simp) n⟩
  | failover => rw [plainFailure_some h]; exact ⟨rfl, fun _ => rfl, fun _ => rfl⟩

/-! ## The first check that fails (R14) -/

/-- The codes of the fields stand in the order of their numbers. -/
theorem fieldFaults_sorted : fieldFaults.Pairwise (fun x y => x.code < y.code) := by decide

/-- Every code but the three made on the bytes has its check among those of the fields. -/
theorem fieldCheck_listed {img : Image} {g : LoadFault} (h : g ∉ fieldFaults) : fieldCheck img g = none := by
  cases g with
  | length => rfl
  | sum => rfl
  | format => rfl
  | _ => exact absurd (by decide) h

theorem fieldFault_none_iff (img : Image) : fieldFault img = none ↔ ∀ g, img.passes g := by
  simp only [fieldFault, fieldChecks_eq, List.findSome?_eq_none_iff, List.mem_map, forall_exists_index,
    and_imp, forall_apply_eq_imp_iff₂, id]
  refine ⟨fun h g => (fieldCheck_none_iff img g).1 ?_, fun h g _ => (fieldCheck_none_iff img g).2 (h g)⟩
  by_cases hg : g ∈ fieldFaults
  · exact h g hg
  · exact fieldCheck_listed hg

/-- R14: the fault is that of a failing check, and every lower code passes. -/
theorem fieldFault_some {img : Image} {f : Failure} (h : fieldFault img = some f) :
    fieldCheck img f.fault = some f ∧ ∀ g, g.code < f.fault.code → img.passes g := by
  rw [fieldFault, fieldChecks_eq, List.findSome?_map, List.findSome?_eq_some_iff] at h
  obtain ⟨before, g, after, hsplit, hg, hbefore⟩ := h
  have hfault : f.fault = g := (fieldCheck_some hg).1
  have hsorted := fieldFaults_sorted
  rw [hsplit, List.pairwise_append, List.pairwise_cons] at hsorted
  obtain ⟨-, ⟨hafter, -⟩, -⟩ := hsorted
  refine ⟨hfault ▸ hg, fun x hx => (fieldCheck_none_iff img x).1 ?_⟩
  rw [hfault] at hx
  by_cases hl : x ∈ fieldFaults
  · rw [hsplit, List.mem_append, List.mem_cons] at hl
    rcases hl with hl | rfl | hl
    · exact hbefore x hl
    · omega
    · have := hafter x hl
      omega
  · exact fieldCheck_listed hl

/-! ## What the failure tells (R15) -/

section
variable {img : Image} {f : Failure}

theorem cueFault_lowest {g : LoadFault} {bad : Nat → Bool} {good : Nat → Prop}
    (hb : ∀ k, bad k = true ↔ ¬ good k) (h : cueFailure g (firstCue img bad) = some f) :
    f.cue < img.cues.length ∧ ¬ good f.cue ∧ ∀ k, k < f.cue → good k := by
  obtain ⟨hk, hbad, hlow⟩ := firstCue_some (cueFailure_some h).1
  exact ⟨hk, (hb _).1 hbad, fun k hlt => Classical.byContradiction fun n =>
    Bool.eq_false_iff.1 (hlow k hlt) ((hb k).2 n)⟩

theorem entryFault_lowest {g : LoadFault} {bad : CueEntry → Bool} {good : CueEntry → Prop}
    (hb : ∀ e, bad e = true ↔ ¬ good e) (h : cueFailure g (lowestEntry img bad) = some f) :
    (∃ e ∈ img.entries, e.cue = f.cue ∧ ¬ good e) ∧ ∀ e ∈ img.entries, ¬ good e → f.cue ≤ e.cue := by
  obtain ⟨⟨e, he, hc, hbad⟩, hlow⟩ := lowestEntry_some (cueFailure_some h).1
  exact ⟨⟨e, he, hc, (hb e).1 hbad⟩, fun x hx n => hlow x hx ((hb x).2 n)⟩

theorem orderFault_pos (h : ¬ img.ordered f.cue) : 0 < f.cue :=
  Classical.byContradiction fun n => h fun p => absurd p n

end

theorem Con.loadFault_eq (c : Con) (reading : Reading) : c.loadFault reading =
    if c.lengthFault = true then some { fault := .length, cue := 0, detail := 0 }
    else if c.sum ≠ c.checkValue then some { fault := .sum, cue := 0, detail := 0 }
    else match reading with
      | .fields img => fieldFault img
      | .unformed _ => some { fault := .format, cue := 0, detail := 0 } := by
  unfold Con.loadFault Con.readFault
  by_cases hl : c.lengthFault = true
  · simp [hl]
  · by_cases hs : c.sum = c.checkValue
    · cases reading <;> simp [hl, hs, plainFailure]
    · simp [hl, hs, plainFailure]

/-- Settles O6: each code has one check, which passes exactly when its condition holds; the codes are listed in order,
and a failure tells what its check found. -/
theorem imageChecksFindFirstFault : Obligations.ImageChecksFindFirstFault := by
  refine ⟨fieldFault_none_iff, fun img f h => ?_, Con.loadFault_eq⟩
  obtain ⟨hc, hlow⟩ := fieldFault_some h
  obtain ⟨-, hcue, hdetail⟩ := fieldCheck_some hc
  have hfails : ¬ img.passes f.fault := fun p => by
    rw [(fieldCheck_none_iff img f.fault).2 p] at hc
    cases hc
  refine ⟨hfails, hlow, ?_, ?_, ?_, ?_, ?_, ?_, ?_, hcue, hdetail⟩
  all_goals
    intro hg
    rw [hg] at hc
  · have ho := cueFault_lowest (badOrder_iff img) hc
    exact ⟨orderFault_pos ho.2.1, ho⟩
  · exact cueFault_lowest (badVamp_iff img) hc
  · exact cueFault_lowest (badAutoGo_iff img) hc
  · exact entryFault_lowest (badCueRef_iff img) hc
  · exact entryFault_lowest (badPatchRef_iff img) hc
  · exact roleFault_some (detailFailure_some hc).1
  · exact repeatedRank_some (detailFailure_some hc).1

end Sys2Proof.Machine
end

section
/-! The operator's inputs (Chapters 4, 8, 10): presses, releases, GO requests and the console's other requests. -/

namespace Sys2Proof.Machine

/-! ## Presses (R195) -/

theorem not_presses_iff (b : Button) (r : Bool) (s : State) :
    ¬ Presses b r s ↔ s.con.buttons.get b = true ∧ r = false := by
  simp [Presses]

/-- R195: without a press nothing happens. -/
theorem withPress_unpressed {s : State} {b : Button} {r : Bool} (f : Image → State → State)
    (h : ¬ Presses b r s) : withPress b r s f = .next s := by
  obtain ⟨hb, rfl⟩ := (not_presses_iff b r s).1 h
  exact withPress_held b f hb

theorem withPress_pressed {s : State} {img : Image} {b : Button} {r : Bool} (f : Image → State → State)
    (hi : s.image = some img) (h : Presses b r s) : withPress b r s f = .next (f img (s.pressed b)) :=
  withPress_taken b r f hi h

theorem withPress_imageless {s : State} {b : Button} {r : Bool} (f : Image → State → State)
    (hi : s.image = none) (h : Presses b r s) : withPress b r s f = .next (s.pressed b) :=
  withPress_none b r f hi h

/-! ## Releases (R169) -/

/-- R169: what a release request leaves once its notice has reached the queue. -/
theorem State.release_flush (img : Image) (s : State) (h : s.con.together = []) :
    (s.release img).flush =
      if s.con.safetyLine then { s with con := s.conAfter .stop img.station 6 2 }
      else if s.spu.ownStop then
        { s with
          spu := { s.spu with ownStop := false, stopPosted := false }
          con := s.conAfter .stop img.station 7 0 }
      else s := by
  unfold State.release
  split
  · exact State.post_flush _ _ _ _ _ s h
  · split
    · exact State.post_flush _ _ _ _ _
        (s.onSpu fun u => { u with ownStop := false, stopPosted := false }) h
    · exact s.flush_empty h

theorem exec_releasePress (s : State) (r : Bool) : exec (.releasePress r) s =
    withPress .release r s (fun img s1 => (s1.release img).flush) := rfl

theorem exec_consoleRelease (s : State) : exec .consoleRelease s = withShow s (fun img =>
    (s.release img).flush.reply (if s.con.safetyLine then .refused else .ok)) := rfl

/-- Settles O49: a release request is judged once, for the press and for the console. -/
theorem releaseIsJudged : Obligations.ReleaseIsJudged := by
  refine ⟨fun s img r hi ht hp => ?_, fun s r => ⟨fun hp => ?_, fun hp hi => ?_⟩,
    fun s img hi ht => ?_, fun _ => rfl⟩
  · have h := (s.pressed .release).release_flush img ht
    rw [exec_releasePress, withPress_pressed _ hi hp, h]
    rfl
  · rw [exec_releasePress, withPress_unpressed _ hp]
  · rw [exec_releasePress, withPress_imageless _ hi hp]
  · have h := s.release_flush img ht
    rw [exec_consoleRelease, withShow_some _ hi, h]
    split
    · rfl
    · split <;> rfl

/-! ## GO requests (R67) -/

theorem State.refusesGo_iff (img : Image) (s : State) : s.refusesGo img = true ↔
    img.roles.caller = false ∨ s.le.localRunning = true ∨
      (s.spu.showState ≠ .preshow ∧ s.spu.showState ≠ .run) := by
  simp [State.refusesGo, or_assoc]

theorem State.refusesGo_false {img : Image} {s : State} (h1 : img.roles.caller = true)
    (h2 : s.le.localRunning = false) (h3 : s.spu.showState = .preshow ∨ s.spu.showState = .run) :
    s.refusesGo img = false := by
  refine Bool.eq_false_iff.2 (fun h => ?_)
  rcases (s.refusesGo_iff img).1 h with h | h | ⟨n1, n2⟩
  · simp [h] at h1
  · simp [h] at h2
  · exact h3.elim n1 n2

theorem whenOf_small {w : Byte} (h : w.toNat ≤ 1) : whenOf w = some (decide (w.toNat = 1)) := by
  have hw : w = 0 ∨ w = 1 := by
    simp only [← BitVec.toNat_inj, BitVec.ofNat_eq_ofNat, BitVec.toNat_ofNat]
    omega
  rcases hw with rfl | rfl <;> rfl

theorem whenOf_large {w : Byte} (h : 1 < w.toNat) : whenOf w = none := by
  have h0 : w ≠ 0 := fun e => by simp [e] at h
  have h1 : w ≠ 1 := fun e => by simp [e] at h
  rw [whenOf, if_neg h0, if_neg h1]

theorem State.goCall_good {img : Image} {s : State} {x : Nat} {w : Byte} (h0 : 0 < x)
    (h1 : x < img.cueCount) (h2 : x ≠ s.spu.cue) (hw : w.toNat ≤ 1) :
    s.goCall img x w =
      some { base := s.spu.cue, target := x, downbeat := decide (w.toNat = 1) } := by
  have hx : ¬ (x = 0 ∨ img.cueCount ≤ x ∨ x = s.spu.cue) := by omega
  simp [State.goCall, whenOf_small hw, hx]

theorem State.goCall_bad {img : Image} {s : State} {x : Nat} {w : Byte}
    (h : x = 0 ∨ img.cueCount ≤ x ∨ x = s.spu.cue ∨ 1 < w.toNat) : s.goCall img x w = none := by
  by_cases hw : 1 < w.toNat
  · simp [State.goCall, whenOf_large hw]
  · have hx : x = 0 ∨ img.cueCount ≤ x ∨ x = s.spu.cue := by omega
    simp [State.goCall, whenOf_small (Nat.le_of_not_lt hw), hx]

theorem exec_goPress (s : State) (r : Bool) : exec (.goPress r) s =
    withPress .go r s (fun img s1 =>
      if s1.refusesGo img then s1
      else
        s1.submitCall
          { base := s1.spu.cue, target := s1.spu.cue + 1, downbeat := img.goDownbeat }) := rfl

theorem exec_consoleGo {s : State} {img : Image} (x : BitVec 16) (w : Byte) (h : s.image = some img) :
    exec (.consoleGo x w) s = .next (s.takeGo img x.toNat w) := withShow_some _ h

/-- Settles O50: where a GO is not refused its CALL is submitted, unless its arguments are out of range. -/
theorem goRequestsSubmitCall : Obligations.GoRequestsSubmitCall := by
  refine ⟨fun s img hi => ⟨fun href => ?_, fun hc hl hst => ?_⟩,
    fun s r => ⟨fun hp => ?_, fun hp hi => ?_⟩⟩
  · have hr := (s.refusesGo_iff img).2 href
    have hp : (s.pressed .go).refusesGo img = true := hr
    refine ⟨fun r h => ?_, fun x w => ?_⟩
    · rw [exec_goPress, withPress_pressed _ hi h, if_pos hp]
    · rw [exec_consoleGo x w hi, State.takeGo, if_pos hr]
      rfl
  · have hr : ¬ s.refusesGo img = true := Bool.eq_false_iff.1 (State.refusesGo_false hc hl hst)
    have hp : ¬ (s.pressed .go).refusesGo img = true := hr
    refine ⟨fun r h => ?_, fun x w h0 h1 h2 hw => ?_, fun x w hbad => ?_⟩
    · rw [exec_goPress, withPress_pressed _ hi h, if_neg hp]
      rfl
    · rw [exec_consoleGo x w hi, State.takeGo, if_neg hr, State.goCall_good h0 h1 h2 hw]
      rfl
    · have hx : x.toNat = 0 ∨ img.cueCount ≤ x.toNat ∨ x.toNat = s.spu.cue ∨ 1 < w.toNat :=
        hbad.imp_left (fun e => by rw [e]; rfl)
      rw [exec_consoleGo x w hi, State.takeGo, if_neg hr, State.goCall_bad hx]
      rfl
  · rw [exec_goPress, withPress_unpressed _ hp]
  · rw [exec_goPress, withPress_imageless _ hi hp]

/-! ## The console's other requests (R172, R191, R192, R196) -/

theorem maskOf_small {m : Byte} (h : m.toNat < 8) : RestoreMask.ofByte m =
    some { tempo := m.getLsbD 0, camera := m.getLsbD 1, vamp := m.getLsbD 2 } := by
  simp [RestoreMask.ofByte, h]

theorem maskOf_large {m : Byte} (h : 8 ≤ m.toNat) : RestoreMask.ofByte m = none := by
  simp [RestoreMask.ofByte, Nat.not_lt.2 h]

theorem resumeOf_good {img : Image} {c b : Nat} {n m : Byte} (h1 : c < img.cueCount) (h2 : b ≤ 9999)
    (h3 : n.toNat ≤ 4) (h4 : m.toNat < 8) : resumeOf img c b n m = some
      { cue := c, bar := b, countIn := n.toNat
        mask := { tempo := m.getLsbD 0, camera := m.getLsbD 1, vamp := m.getLsbD 2 } } := by
  have hx : ¬ (img.cueCount ≤ c ∨ Config.lastBar < b ∨ 4 < n.toNat) := by
    unfold Config.lastBar
    omega
  simp [resumeOf, maskOf_small h4, hx]

theorem resumeOf_bad {img : Image} {c b : Nat} {n m : Byte}
    (h : img.cueCount ≤ c ∨ 9999 < b ∨ 4 < n.toNat ∨ 8 ≤ m.toNat) : resumeOf img c b n m = none := by
  by_cases hm : 8 ≤ m.toNat
  · simp [resumeOf, maskOf_large hm]
  · have hx : img.cueCount ≤ c ∨ Config.lastBar < b ∨ 4 < n.toNat := by
      unfold Config.lastBar
      omega
    simp [resumeOf, maskOf_small (Nat.lt_of_not_le hm), hx]

theorem State.refusesResumeRequest_iff (img : Image) (s : State) :
    s.refusesResumeRequest img = true ↔ img.roles.caller = false ∨ s.le.localRunning = true := by
  simp [State.refusesResumeRequest]

theorem exec_consoleResume {s : State} {img : Image} (c b : BitVec 16) (n m : Byte)
    (h : s.image = some img) :
    exec (.consoleResume c b n m) s = .next (s.requestResume img c.toNat b.toNat n m) :=
  withShow_some _ h

/-- R57: the queue refuses a RESUME while it holds another one. -/
theorem Le.refusesResume_other {l : Le} {f g : ResumeFields} {e : Entry} (he : e ∈ l.queue)
    (hm : e.message = .resume g) (hg : g ≠ f) : l.refusesResume f = true := by
  simp only [Le.refusesResume, List.any_eq_true, Bool.and_eq_true, beq_iff_eq, bne_iff_ne]
  exact ⟨e, he, by rw [hm]; rfl, by rw [hm]; exact fun x => hg (Message.resume.inj x)⟩

/-- R57: the queue takes a RESUME while it holds none but equal ones. -/
theorem Le.refusesResume_equal {l : Le} {f : ResumeFields}
    (h : ∀ e ∈ l.queue, e.message.kind = .resume → e.message = .resume f) :
    l.refusesResume f = false := by
  simp only [Le.refusesResume, List.any_eq_false, Bool.and_eq_true, beq_iff_eq, bne_iff_ne, not_and,
    Decidable.not_not]
  exact h

theorem Le.not_holds {l : Le} {k : MessageKind} (h : l.holds k = false) :
    ∀ e ∈ l.queue, e.message.kind ≠ k := by
  simpa [Le.holds] using h

/-- R172: where the arguments pass, OK or BUSY by the queue. -/
theorem State.submitResume_busy {s : State} {f : ResumeFields} (h : s.le.refusesResume f = true) :
    s.submitResume f = { s with con := { s.con with frame := .other, reply := [2] } } := by
  rw [State.submitResume, if_pos h]
  rfl

theorem State.submitResume_ok {s : State} {f : ResumeFields} (h : s.le.refusesResume f = false) :
    s.submitResume f = { s with
      le := s.le.submitResume f, con := { s.con with frame := .other, reply := [0] } } := by
  rw [State.submitResume, if_neg (Bool.eq_false_iff.1 h)]
  rfl

/-- R172: a console RESUME whose arguments pass reaches the queue. -/
theorem exec_consoleResume_good {s : State} {img : Image} {c b : BitVec 16} {n m : Byte}
    (hi : s.image = some img) (hc : img.roles.caller = true) (hl : s.le.localRunning = false)
    (h1 : c.toNat < img.cueCount) (h2 : b.toNat ≤ 9999) (h3 : n.toNat ≤ 4) (h4 : m.toNat < 8) :
    exec (.consoleResume c b n m) s = .next (s.submitResume
      { cue := c.toNat, bar := b.toNat, countIn := n.toNat
        mask := { tempo := m.getLsbD 0, camera := m.getLsbD 1, vamp := m.getLsbD 2 } }) := by
  have hr : ¬ s.refusesResumeRequest img = true := by
    simp [State.refusesResumeRequest_iff, hc, hl]
  rw [exec_consoleResume c b n m hi, State.requestResume, if_neg hr, resumeOf_good h1 h2 h3 h4]

/-- R62, R191: the four sources of a console CAMERA. -/
theorem cameraOfCode_byte (x : Byte) : cameraOfCode x.toNat =
    if 3 < x.toNat then none
    else some (if x = 0 then some .front else if x = 1 then some .lowlight
      else if x = 2 then some .wide else none) := by
  by_cases h : 3 < x.toNat
  · rw [if_pos h]
    unfold cameraOfCode
    split <;> first | omega | rfl
  · have hx : x = 0 ∨ x = 1 ∨ x = 2 ∨ x = 3 := by
      simp only [← BitVec.toNat_inj, BitVec.ofNat_eq_ofNat, BitVec.toNat_ofNat]
      omega
    rcases hx with rfl | rfl | rfl | rfl <;> rfl

/-- R191: the TEMPO of a console TEMPO. -/
theorem tempoOf_eq (x : Nat) (w : Byte) : tempoOf x w =
    if x < 300 ∨ 3000 < x ∨ 1 < w.toNat then none
    else some { tempo := x, atOnce := decide (w.toNat = 1) } := by
  unfold tempoOf
  by_cases hx : x < 300 ∨ 3000 < x
  · simp [hx, or_assoc.symm]
  · by_cases hw : 1 < w.toNat
    · simp [hx, hw, whenOf_large hw]
    · simp [hx, hw, whenOf_small (Nat.le_of_not_lt hw)]

theorem exec_consoleCamera {s : State} {img : Image} (x : Byte) (h : s.image = some img) :
    exec (.consoleCamera x) s = .next
      (match cameraOfCode x.toNat with
        | some y => s.submit (.camera y)
        | none => s.reply .badArg) := (withShow_some _ h).trans rfl

theorem exec_consoleTempo {s : State} {img : Image} (x : BitVec 16) (w : Byte) (h : s.image = some img) :
    exec (.consoleTempo x w) s = .next
      (match tempoOf x.toNat w with
        | some f => s.submit (.tempo f)
        | none => s.reply .badArg) := (withShow_some _ h).trans rfl

theorem exec_consoleAttend {s : State} {img : Image} (a : Byte) (h : s.image = some img) :
    exec (.consoleAttend a) s = .next
      (match whenOf a with
        | some on => (s.onCon (fun c => { c with attendFlag := on }.judgeAttend)).reply .ok
        | none => s.reply .badArg) := (withShow_some _ h).trans rfl

/-- Settles O53, request by request. -/
theorem consoleRequestsAreAnswered : Obligations.ConsoleRequestsAreAnswered := by
  refine ⟨fun s img c b n m f hi hf => ⟨fun href => ?_, fun hc hl hbad => ?_, fun hc hl h1 h2 h3 h4 => ?_⟩,
    fun s img x hi => ?_, fun s img x w hi => ?_, fun s img hi => withShow_some _ hi, fun s code => rfl,
    fun s c hi hcmd => ?_, fun s img hi => ⟨fun a => ?_, fun a => ?_⟩⟩
  · rw [exec_consoleResume c b n m hi, State.requestResume,
      if_pos ((s.refusesResumeRequest_iff img).2 href)]
    rfl
  · have hr : ¬ s.refusesResumeRequest img = true := by
      simp [State.refusesResumeRequest_iff, hc, hl]
    rw [exec_consoleResume c b n m hi, State.requestResume, if_neg hr, resumeOf_bad hbad]
    rfl
  · rw [exec_consoleResume_good hi hc hl h1 h2 h3 h4, ← hf]
    refine ⟨fun hq => ?_, fun e g he hm hg => ?_, fun hq heq => ?_⟩
    · have hr : s.le.refusesResume f = false :=
        Le.refusesResume_equal (fun e he k => absurd k (Le.not_holds hq e he))
      rw [State.submitResume_ok hr, Le.submitResume, hq]
      rfl
    · rw [State.submitResume_busy (Le.refusesResume_other he hm hg)]
    · rw [State.submitResume_ok (Le.refusesResume_equal heq), Le.submitResume, if_pos hq]
  · rw [exec_consoleCamera x hi, cameraOfCode_byte]
    by_cases h : 3 < x.toNat
    · simp only [h, if_true]
      rfl
    · simp only [h, if_false]
      rfl
  · rw [exec_consoleTempo x w hi, tempoOf_eq]
    by_cases h : x.toNat < 300 ∨ 3000 < x.toNat ∨ 1 < w.toNat
    · simp only [h, if_true]
      rfl
    · simp only [h, if_false]
      rfl
  · have hn : ∀ f, withShow s f = .next { s with con := { s.con with frame := .other, reply := [1] } } :=
      fun f => withShow_none f hi
    rcases hcmd with hm | ⟨x, w, rfl⟩ | ⟨d, t, rfl⟩ | ⟨x, y, n, m, rfl⟩ | ⟨x, rfl⟩ | ⟨x, w, rfl⟩ | ⟨a, rfl⟩
    · simp only [List.mem_cons, List.not_mem_nil, or_false] at hm
      rcases hm with rfl | rfl | rfl
      all_goals exact hn _
    all_goals exact hn _
  · exact withImage_some (s := s.onCon fun c => { c with attendLine := a }) _ hi
  · rw [exec_consoleAttend a hi]
    by_cases h : 1 < a.toNat
    · rw [whenOf_large h, if_pos h]
      rfl
    · rw [whenOf_small (Nat.le_of_not_lt h), if_neg h]
      rfl

end Sys2Proof.Machine
end

section
/-! Console frames by their bytes (R64, R190): shifting, the command a frame spells, and the bytes it shifts out. -/

namespace Sys2Proof.Machine

/-! ## Shifting (R190) -/

/-- The bits shifted in so far are the upper bits of the byte. -/
theorem shiftIn_upper (b : Byte) (k : Nat) (hk : k ≤ 8) :
    shiftIn ((List.range k).map (fun j => b.getLsbD (7 - j))) = b >>> (8 - k) := by
  induction k with
  | zero => exact (BitVec.ushiftRight_eq_zero (Nat.le_refl 8)).symm
  | succ k ih =>
    have hstep : shiftIn ((List.range (k + 1)).map (fun j => b.getLsbD (7 - j))) =
        b >>> (8 - k) + b >>> (8 - k) + (if b.getLsbD (7 - k) then 1 else 0) := by
      rw [← ih (by omega)]
      simp [shiftIn, List.range_succ]
    have hbit : (if b.getLsbD (7 - k) then (1 : Byte) else 0).toNat = b.toNat / 2 ^ (7 - k) % 2 := by
      rw [BitVec.getLsbD, Nat.testBit_eq_decide_div_mod_eq]
      have := Nat.mod_two_eq_zero_or_one (b.toNat / 2 ^ (7 - k))
      rcases this with h | h <;> simp [h]
    have hhalf : b.toNat / 2 ^ (8 - k) = b.toNat / 2 ^ (7 - k) / 2 := by
      rw [show 8 - k = 7 - k + 1 by omega, Nat.pow_succ, Nat.div_div_eq_div_mul]
    have hsmall : b.toNat / 2 ^ (7 - k) < 256 := Nat.lt_of_le_of_lt (Nat.div_le_self _ _) b.isLt
    rw [hstep]
    apply BitVec.eq_of_toNat_eq
    rw [BitVec.toNat_add, BitVec.toNat_add, hbit, BitVec.toNat_ushiftRight, BitVec.toNat_ushiftRight,
      Nat.shiftRight_eq_div_pow, Nat.shiftRight_eq_div_pow, hhalf, show 8 - (k + 1) = 7 - k by omega]
    generalize b.toNat / 2 ^ (7 - k) = q at hsmall
    simp only [Nat.reducePow]
    omega

theorem shiftIn_shiftOut (b : Byte) : shiftIn (shiftOut b) = b := by
  simpa [shiftOut] using shiftIn_upper b 8 (Nat.le_refl 8)

/-! ## The command a frame spells (R64, R190) -/

theorem argOf_eq_append (hi lo : Byte) : argOf hi lo = hi ++ lo := by
  apply BitVec.eq_of_toNat_eq
  have h1 := hi.isLt
  have h2 := lo.isLt
  rw [argOf, wordOf, BitVec.toNat_ofNat, BitVec.toNat_append, ← Nat.shiftLeft_add_eq_or_of_lt h2,
    Nat.shiftLeft_eq]
  omega

theorem consoleArgs_unlisted {code : Byte} (h : code ∉ listedCodes) : consoleArgs code = none := by
  simp only [listedCodes, List.mem_cons, List.not_mem_nil, or_false, not_or, ← BitVec.toNat_inj] at h
  unfold consoleArgs
  split
  case h_12 => rfl
  all_goals simp_all

theorem listed_of_consoleArgs {code : Byte} {n : Nat} (h : consoleArgs code = some n) :
    code ∈ listedCodes := by
  refine Classical.byContradiction fun hn => ?_
  rw [consoleArgs_unlisted hn] at h
  cases h

/-- R64: a listed code takes 0, 1, 3 or 6 argument bytes. -/
theorem consoleArgs_codes {code : Byte} {n : Nat} (h : consoleArgs code = some n) :
    n = 0 ∨ (n = 1 ∧ code ∈ [0x11, 0x14, 0x16]) ∨ (n = 3 ∧ code ∈ [0x10, 0x15]) ∨
      (n = 6 ∧ code = 0x13) := by
  have hm := listed_of_consoleArgs h
  simp only [listedCodes, List.mem_cons, List.not_mem_nil, or_false] at hm
  rcases hm with rfl | rfl | rfl | rfl | rfl | rfl | rfl | rfl | rfl | rfl | rfl
  all_goals
    cases h
    simp

/-- R64: with fewer arguments than its code takes no command is spelled. -/
theorem consoleCommand_unfinished {code : Byte} {args : List Byte} {n : Nat}
    (h : consoleArgs code = some n) (hlen : args.length < n) : consoleCommand code args = none := by
  rcases consoleArgs_codes h with rfl | ⟨rfl, hc⟩ | ⟨rfl, hc⟩ | ⟨rfl, rfl⟩
  · exact absurd hlen (Nat.not_lt_zero _)
  · simp only [List.mem_cons, List.not_mem_nil, or_false] at hc
    match args, hlen with
    | [], _ => rcases hc with rfl | rfl | rfl <;> rfl
  · simp only [List.mem_cons, List.not_mem_nil, or_false] at hc
    match args, hlen with
    | [], _ => rcases hc with rfl | rfl <;> rfl
    | [_], _ => rcases hc with rfl | rfl <;> rfl
    | [_, _], _ => rcases hc with rfl | rfl <;> rfl
  · match args, hlen with
    | [], _ => rfl
    | [_], _ => rfl
    | [_, _], _ => rfl
    | [_, _, _], _ => rfl
    | [_, _, _, _], _ => rfl
    | [_, _, _, _, _], _ => rfl

theorem frameCommand_unfinished {code : Byte} {bytes : List Byte} {n : Nat}
    (h : consoleArgs code = some n) (hlen : bytes.length < n) : frameCommand (code :: bytes) = none := by
  have hc : frameCommand (code :: bytes) = consoleCommand code (bytes.take n) := by
    simp [frameCommand, h]
  rw [hc, List.take_of_length_le (Nat.le_of_lt hlen), consoleCommand_unfinished h hlen]

theorem frameCommand_unlisted {code : Byte} (bytes : List Byte) (h : code ∉ listedCodes) :
    frameCommand (code :: bytes) = some (.unknownCommand code) := by
  simp [frameCommand, consoleArgs_unlisted h]

/-! ## The bytes shifted out (R64, R190) -/

section
variable (s u : State) (args : Nat)

theorem frameByte_status : frameByte s args u 0 = s.statusByte := rfl

theorem frameByte_succ (k : Nat) :
    frameByte s args u (k + 1) = (List.replicate args 0 ++ u.con.reply).getD k 0 := rfl

theorem frameByte_args {k : Nat} (h1 : 1 ≤ k) (h2 : k ≤ args) : frameByte s args u k = 0 := by
  obtain ⟨j, rfl⟩ := Nat.exists_eq_add_of_le' h1
  rw [frameByte_succ, List.getD_eq_getElem?_getD, List.getElem?_append_left (by rwa [List.length_replicate]),
    List.getElem?_replicate_of_lt h2, Option.getD_some]

theorem frameByte_reply (k : Nat) : frameByte s args u (args + 1 + k) = u.con.reply.getD k 0 := by
  rw [show args + 1 + k = args + k + 1 by omega, frameByte_succ,
    List.getD_eq_getElem?_getD, List.getElem?_append_right (by simp), List.length_replicate,
    Nat.add_sub_cancel_left, ← List.getD_eq_getElem?_getD]

end

/-! ## The status byte (R64) -/

theorem LineState.code_le (x : LineState) : x.code ≤ 3 := by cases x <;> decide

theorem ShowState.code_le (x : ShowState) : x.code ≤ 4 := by cases x <;> decide

theorem State.shownState_le (s : State) : s.shownState ≤ 4 := by
  unfold State.shownState
  split
  · exact ShowState.code_le _
  · exact Nat.zero_le _

theorem bit_le (b : Bool) : bit b ≤ 1 := by cases b <;> decide

/-- R64: the fields of the status byte do not overlap. -/
theorem State.statusByte_toNat (s : State) : s.statusByte.toNat = s.le.state.code + 4 * s.shownState +
    32 * bit (!s.con.notices.isEmpty) + 64 * bit s.con.overflow +
    128 * bit (s.image.isSome && s.spu.ownStop) := by
  have h1 := LineState.code_le s.le.state
  have h2 := s.shownState_le
  have h3 := bit_le (!s.con.notices.isEmpty)
  have h4 := bit_le s.con.overflow
  have h5 := bit_le (s.image.isSome && s.spu.ownStop)
  rw [State.statusByte, BitVec.toNat_ofNat]
  omega

theorem mul_bit (n : Nat) (b : Bool) : n * bit b = if b = true then n else 0 := by cases b <;> simp [bit]

/-- Settles O51: the bytes of a frame spell its command, and the reply follows the arguments. -/
theorem consoleFramesAreRead : Obligations.ConsoleFramesAreRead := by
  refine ⟨fun b => ⟨shiftIn_shiftOut b, fun k hk => by simp [shiftOut, hk]⟩,
    fun hi lo bh bl w m rest => ?_, fun code rest => frameCommand_unlisted rest,
    fun code bytes n => frameCommand_unfinished, fun s u args => ⟨frameByte_status s u args,
      fun k => frameByte_args s u args, fun k b hb => ?_, fun k hk => ?_⟩, fun s => ?_⟩
  · rw [← argOf_eq_append, ← argOf_eq_append]
    exact ⟨rfl, rfl, rfl, rfl, rfl, rfl, rfl, rfl, rfl, rfl, rfl⟩
  · rw [frameByte_reply]
    simp [hb]
  · obtain ⟨j, rfl⟩ := Nat.exists_eq_add_of_le (Nat.le_trans (Nat.le_add_right _ _) hk)
    rw [frameByte_reply]
    rw [List.getD_eq_getElem?_getD, List.getElem?_eq_none (by omega), Option.getD_none]
  · rw [s.statusByte_toNat]
    simp only [mul_bit, State.shownState, Bool.not_eq_true', List.isEmpty_eq_false_iff, Bool.and_eq_true]
    by_cases hn : s.con.notices = [] <;> by_cases hi : s.image.isSome = true <;> simp [hn, hi]

end Sys2Proof.Machine
end

section
/-! Stop requests (R159 to R167): what a raise does where own-stop is clear and where it is set. -/

namespace Sys2Proof.Machine

/-! ## A raise (R159) -/

/-- R159, R163, R165: the station that a raise brings into STOPPED, but for its notice. -/
def State.raised (img : Image) (reason : StopReason) (detail : Byte) (s : State) : State :=
  { s with
    spu := { s.spu with ownStop := true, stopPosted := true }.stopped (s.snapshotAtStop img)
    le := { s.le.submitHalt { reason := reason, detail := detail } with
      breakPending := KeepsBreak s.le s.now }
    psq := s.psq.withdraw.beginHold
    cke := s.cke.stop img }

/-- R159: the station in STOPPED after a raise: nothing is entered again. -/
def State.raisedInStop (reason : StopReason) (detail : Byte) (s : State) : State :=
  { s with
    spu := { s.spu with ownStop := true, stopPosted := true }
    le := { s.le.submitHalt { reason := reason, detail := detail } with
      breakPending := KeepsBreak s.le s.now } }

section
variable {s : State} {img : Image} {reason : StopReason} {detail : Byte}

theorem Le.submitHalt_roundCount (l : Le) (f : HaltFields) :
    (l.submitHalt f).roundCount = l.roundCount := by
  unfold Le.submitHalt
  split
  · rfl
  · split <;> rfl

theorem State.raiseStop_own (h : s.spu.ownStop = true) : s.raiseStop img reason detail = s := by
  rw [State.raiseStop, if_pos h]

/-- R159: the first two steps of a raise; in STOPPED they are all. -/
theorem State.raiseStop_clear (h : s.spu.ownStop = false) : s.raiseStop img reason detail =
    (s.raisedInStop reason detail).enterStopped img 1 img.station reason.code := by
  rw [State.raiseStop, if_neg (Bool.eq_false_iff.1 h), State.raisedInStop,
    ← Le.requestBreak_submitHalt]
  rfl

theorem State.raiseStop_inStop (h : s.spu.ownStop = false) (hs : s.spu.showState = .stopped) :
    s.raiseStop img reason detail = s.raisedInStop reason detail := by
  rw [State.raiseStop_clear h]
  exact State.enterStopped_stopped img _ _ _ _ hs

theorem State.raiseStop_enters (h : s.spu.ownStop = false) (hs : s.spu.showState ≠ .stopped)
    (hn : s.holdsNothing) : s.raiseStop img reason detail =
      (s.raised img reason detail).post .spu .stop img.station 1 reason.code := by
  rw [State.raiseStop_clear h, State.enterStopped_held img _ _ _ (s.raisedInStop reason detail) hs hn]
  rfl

theorem State.raised_conAfter (kind : NoticeKind) (k d1 d2 : Nat) :
    (s.raised img reason detail).conAfter kind k d1 d2 = s.conAfter kind k d1 d2 := by
  simp only [State.conAfter, State.raised, Le.submitHalt_roundCount]
  rfl

/-- R155: a station in STOPPED makes no video stop. -/
theorem State.videoStopCondition_stopped (h : s.spu.showState = .stopped) :
    s.videoStopCondition img = false := by
  simp [State.videoStopCondition, h]

/-- R117: in STOPPED the click does not run. -/
theorem State.clickRuns_stopped (h : s.spu.showState = .stopped) : s.clickRuns = false := by
  simp [State.clickRuns, h]

/-! ## The event of a stop request -/

/-- R159: a stop request at an instant, with the end of its event. -/
def State.requestStop (img : Image) (reason : StopReason) (detail : Byte) (t : Nat) (s : State) : State :=
  ((s.reach t).raiseStop img reason detail).conclude img s

theorem State.requestStop_own (t : Nat) (h : s.spu.ownStop = true) (ht : s.con.together = []) :
    s.requestStop img reason detail t = (s.reach t).settleClick img := by
  rw [State.requestStop, State.raiseStop_own (s := s.reach t) h]
  exact State.conclude_silent img _ s id ht

theorem State.requestStop_inStop (t : Nat) (h : s.spu.ownStop = false) (hs : s.spu.showState = .stopped)
    (ht : s.con.together = []) : s.requestStop img reason detail t =
      ((s.reach t).raisedInStop reason detail).settleClick img := by
  rw [State.requestStop, State.raiseStop_inStop (s := s.reach t) h hs]
  refine State.conclude_silent img _ s (fun hc => ?_) ht
  rw [State.videoStopCondition_stopped (s := (s.reach t).raisedInStop reason detail) hs] at hc
  cases hc

theorem State.requestStop_enters (t : Nat) (h : s.spu.ownStop = false) (hs : s.spu.showState ≠ .stopped)
    (hn : s.holdsNothing) (ht : s.con.together = []) : s.requestStop img reason detail t =
      { ((s.reach t).raised img reason detail).settleClick img with
        con := s.conAfter .stop img.station 1 reason.code } := by
  have hst : (((s.reach t).raised img reason detail).post .spu .stop img.station 1
      reason.code).spu.showState = .stopped := rfl
  rw [State.requestStop, State.raiseStop_enters (s := s.reach t) h hs hn,
    State.conclude_quiet img _ s (fun hc => ?_),
    State.settleClick_post img _ _ _ _ _ ((s.reach t).raised img reason detail) ht,
    State.raised_conAfter]
  · rfl
  · rw [State.videoStopCondition_stopped hst] at hc
    cases hc

/-! ## The fields after a stop request -/

/-- R166: the snapshot at a stop from PRESHOW or RUN. -/
theorem State.snapshotAtStop_playing (h : s.spu.showState = .preshow ∨ s.spu.showState = .run) :
    s.snapshotAtStop img = some
      { cue := s.spu.cue, bar := s.shownBar img, beat := s.shownBeat img,
        vamp := s.cke.vamp.map VampState.pass, tempo := s.cke.tempo,
        tempoOverride := s.cke.override, cameraOverride := s.vsl.override } := by
  rcases h with h | h <;> simp [State.snapshotAtStop, h]

/-- R166: the snapshot at a stop from COUNTIN is of the restart it counts to. -/
theorem State.snapshotAtStop_countin {x : RestartRecord} (h : s.spu.showState = .countin)
    (hx : s.spu.restart = some x) : s.snapshotAtStop img = some
      { cue := s.spu.cue, bar := x.bar, beat := 1, vamp := x.pass, tempo := s.cke.tempo,
        tempoOverride := s.cke.override, cameraOverride := s.vsl.override } := by
  simp [State.snapshotAtStop, h, hx]

/-- R166: a stop from STANDBY keeps the snapshot held. -/
theorem State.snapshotAtStop_standby (h : s.spu.showState = .standby) :
    s.snapshotAtStop img = s.spu.snapshot := by
  simp [State.snapshotAtStop, h]

/-- R137: CKE after an entry to STOPPED and the end of its event. -/
theorem State.raised_settleClick_cke :
    ((s.raised img reason detail).settleClick img).cke.beatTimer = none ∧
      ((s.raised img reason detail).settleClick img).cke.countIn = none ∧
      ((s.raised img reason detail).settleClick img).cke.bar = s.cke.bar := by
  have hr : (s.raised img reason detail).clickRuns = false := State.clickRuns_stopped rfl
  refine ⟨?_, ?_, ?_⟩
  · rw [State.settleClick, hr]
    rfl
  · simp only [State.settleClick_fields]
    rfl
  · simp only [State.settleClick_fields]
    rfl

end

/-! ## The three commands that request a stop (R159, R160, R195) -/

/-- A command that requests a stop changes CON before the request (a line's level) or after it (a reply), and leaves
the notices in both. -/
theorem exec_requestsStop {c : Instr} {s : State} {img : Image} {reason : StopReason} {detail : Byte}
    {t : Nat} (hi : s.image = some img) (h : RequestsStop c s reason detail t) :
    ∃ (before : Con) (after : Con → Con),
      exec c s = .next (({ s with con := before }.requestStop img reason detail t).onCon after) ∧
        before.notices = s.con.notices ∧ before.together = s.con.together ∧
        (∀ x, (after x).notices = x.notices) ∧
        ∀ v : State, v.con.safetyLine = before.safetyLine → StopTold c (v.onCon after) := by
  rcases h with ⟨r, rfl, hp, rfl, rfl⟩ | ⟨rfl, hs, rfl, rfl⟩ | ⟨rfl, rfl⟩
  · refine ⟨(s.pressed .stop).con, id, ?_, rfl, rfl, fun _ => rfl, fun v _ => ⟨?_, ?_⟩⟩
    · exact withPress_pressed (fun img s1 => ((s1.reach t).raiseStop img .button 0).conclude img s1) hi hp
    · exact fun _ e => by cases e
    · exact fun _ _ e => by cases e
  · refine ⟨{ s.con with safetyLine := true }, id, ?_, rfl, rfl, fun _ => rfl, fun v hv => ⟨?_, ?_⟩⟩
    · show execSafetyAssertion s t = _
      rw [execSafetyAssertion, if_neg (Bool.eq_false_iff.1 hs)]
      exact withImage_some (s := { s with con := { s.con with safetyLine := true } }) _ hi
    · exact fun _ _ => hv
    · exact fun _ _ e => by cases e
  · refine ⟨s.con, fun c => { c with frame := .other, reply := [0] }, withShow_some _ hi, rfl, rfl,
      fun _ => rfl, fun v _ => ⟨?_, ?_⟩⟩
    · exact fun _ e => by cases e
    · exact fun _ _ _ => ⟨rfl, rfl⟩

theorem Con.append_notices (c : Con) (n : Notice) : (c.append n).notices =
    if c.notices.length < Config.noticeRoom then c.notices ++ [n] else c.notices := by
  unfold Con.append
  split <;> rfl

/-- R159: a request that brings the station into STOPPED. -/
theorem exec_requestsStop_enters {c : Instr} {s : State} {img : Image} {reason : StopReason}
    {detail : Byte} {t : Nat} (hi : s.image = some img) (h : RequestsStop c s reason detail t)
    (ht : s.con.together = []) (ho : s.spu.ownStop = false) (hn : s.holdsNothing)
    (hs : s.spu.showState ≠ .stopped) :
    Completes c s (fun u =>
      u.spu = { s.spu with ownStop := true, stopPosted := true }.stopped (s.snapshotAtStop img) ∧
      u.le = { s.le.submitHalt { reason := reason, detail := detail } with
        breakPending := KeepsBreak s.le (max s.now t) } ∧ u.now = max s.now t ∧
      u.con.notices = (s.conAfter .stop img.station 1 reason.code).notices ∧ StopTold c u ∧
      u.psq = s.psq.withdraw.beginHold ∧ u.cke.beatTimer = none ∧ u.cke.countIn = none ∧
      u.cke.bar = s.cke.bar ∧ u.vsl = s.vsl ∧ SameHost s u) := by
  obtain ⟨before, after, hexec, hnotices, htog, hafter, htold⟩ := exec_requestsStop hi h
  rw [State.requestStop_enters (s := { s with con := before }) t ho hs hn (htog.trans ht)] at hexec
  obtain ⟨hbeat, hcount, hbar⟩ := State.raised_settleClick_cke
    (s := ({ s with con := before } : State).reach t) (img := img) (reason := reason) (detail := detail)
  have hnotes : (after (({ s with con := before } : State).conAfter .stop img.station 1
      reason.code)).notices = (s.conAfter .stop img.station 1 reason.code).notices := by
    simp only [hafter, State.conAfter, Con.append_notices, hnotices]
  exact ⟨_, hexec, rfl, rfl, rfl, hnotes, htold _ (Con.append_safetyLine _ _), rfl, hbeat, hcount, hbar,
    rfl, rfl, rfl, rfl⟩

/-- Settles O48: each request is one raise between two changes of CON. -/
theorem stopRequestsRaise : Obligations.StopRequestsRaise := by
  refine ⟨fun s img c reason detail t hi hreq ht => ?_, fun s r t => ⟨fun hp => ?_, fun hp hi => ?_,
    fun hs => ?_, fun hi => ?_⟩⟩
  · obtain ⟨before, after, hexec, hnotices, htog, hafter, htold⟩ := exec_requestsStop hi hreq
    rw [ht] at htog
    refine ⟨fun ho hn hs => ?_, fun ho hs => ?_, fun ho => ?_⟩
    · obtain ⟨u, hexec, hspu, hrest⟩ := exec_requestsStop_enters hi hreq ht ho hn hs
      obtain ⟨hle, hnow, hnotes, htold, hpsq, hclick⟩ := hrest
      refine ⟨u, hexec, ?_⟩
      show u.spu.ownStop = true ∧ _
      rw [hspu]
      exact ⟨rfl, rfl, rfl, rfl, rfl, rfl, State.snapshotAtStop_playing,
        fun _ => State.snapshotAtStop_countin, State.snapshotAtStop_standby, hle, hnow, hnotes, htold,
        hpsq ▸ Psq.stop_holds s.psq, hclick⟩
    · rw [State.requestStop_inStop (s := { s with con := before }) t ho hs htog] at hexec
      exact ⟨_, hexec, rfl, rfl, rfl, (hafter _).trans hnotices, htold _ rfl, rfl, rfl,
        State.settleClick_same img _, rfl, rfl, rfl⟩
    · rw [State.requestStop_own (s := { s with con := before }) t ho htog] at hexec
      exact ⟨_, hexec, rfl, rfl, rfl, rfl, rfl, (hafter _).trans hnotices, htold _ rfl,
        State.settleClick_same img _, rfl, rfl, rfl⟩
  · exact withPress_unpressed (fun img s1 => ((s1.reach t).raiseStop img .button 0).conclude img s1) hp
  · exact withPress_imageless (fun img s1 => ((s1.reach t).raiseStop img .button 0).conclude img s1) hi hp
  · show execSafetyAssertion s t = _
    rw [execSafetyAssertion, if_pos hs]
  · show execSafetyAssertion s t = _
    rw [execSafetyAssertion]
    split
    next hs => rw [← hs]
    next => exact withImage_none (s := { s with con := { s.con with safetyLine := true } }) _ hi

end Sys2Proof.Machine
end

section
/-! Image accepted (R16): the show starts, and with SAFETY asserted it starts in STOPPED. -/

namespace Sys2Proof.Machine

section
variable {s : State} {img : Image} {t : Nat}

theorem State.reach_self (s : State) : s.reach s.now = s := by
  rw [State.reach, Nat.max_self]

/-- R16: SAFETY deasserted raises nothing. -/
theorem State.readSafety_deasserted (h : s.con.safetyLine = false) : s.readSafety img = s :=
  if_neg (Bool.eq_false_iff.1 h)

theorem State.readSafety_asserted (h : s.con.safetyLine = true) :
    s.readSafety img = s.raiseStop img .safety 0 := if_pos h

/-- R159: a raise at the instant reached, with the end of its event. -/
theorem State.raiseStop_concludes {reason : StopReason} {detail : Byte} (h : s.spu.ownStop = false)
    (hs : s.spu.showState ≠ .stopped) (hn : s.holdsNothing) (ht : s.con.together = []) :
    (s.raiseStop img reason detail).conclude img s =
      { (s.raised img reason detail).settleClick img with
        con := s.conAfter .stop img.station 1 reason.code } := by
  have hrequest := State.requestStop_enters (img := img) (reason := reason) (detail := detail)
    s.now h hs hn ht
  rwa [State.requestStop, State.reach_self] at hrequest

/-- The station at image accepted at an instant, before SAFETY is read. -/
def State.acceptAt (img : Image) (t : Nat) (s : State) : State :=
  ((s.recordReading (.fields img)).reach t).accept img

theorem exec_imageAccepted (hl : s.con.loader = .checking) (hr : ReadsAs s (.fields img))
    (hf : s.con.loadFault (.fields img) = none) : exec (.imageAccepted t img) s =
      .next (((s.acceptAt img t).readSafety img).conclude img (s.acceptAt img t)) :=
  if_pos ⟨hl, (s.readsAs_iff _).2 hr, hf⟩

theorem exec_imageAccepted_unread (hr : ¬ ReadsAs s (.fields img)) :
    exec (.imageAccepted t img) s = .next s :=
  if_neg fun h => hr ((s.readsAs_iff _).1 h.2.1)

/-- R14: image accepted keeps what the received bytes read as. -/
theorem State.acceptAt_records (hr : ReadsAs s (.fields img)) :
    RecordsReading (.fields img) s (s.acceptAt img t) :=
  s.recordReading_records _ hr

/-- R16: with SAFETY deasserted image accepted posts nothing. -/
theorem State.acceptAt_concludes (hs : s.con.safetyLine = false) (ht : s.con.together = []) :
    ((s.acceptAt img t).readSafety img).conclude img (s.acceptAt img t) =
      (s.acceptAt img t).settleClick img := by
  rw [State.readSafety_deasserted (s := s.acceptAt img t) hs]
  exact State.conclude_silent img _ _ id ht

/-- R16, R159: with SAFETY asserted image accepted makes a stop request at its own instant. -/
theorem State.acceptAt_stops (hs : s.con.safetyLine = true) (ht : s.con.together = []) :
    ((s.acceptAt img t).readSafety img).conclude img (s.acceptAt img t) =
      { ((s.acceptAt img t).raised img .safety 0).settleClick img with
        con := (s.acceptAt img t).conAfter .stop img.station 1 StopReason.safety.code } := by
  have hshow : (s.acceptAt img t).spu.showState ≠ .stopped := ShowState.noConfusion
  rw [State.readSafety_asserted (s := s.acceptAt img t) hs]
  exact State.raiseStop_concludes rfl hshow ⟨rfl, rfl, rfl⟩ ht

/-- R16, R196: CON at image accepted with SAFETY asserted, but for the room of the queue. -/
theorem State.acceptAt_stop_notices (hroom : s.con.notices.length < 32) :
    ((s.acceptAt img t).conAfter .stop img.station 1 StopReason.safety.code).notices =
      s.con.notices ++
        [{ kind := .stop, round := 0, cue := 0, station := img.station, detail1 := 1, detail2 := 2 }] := by
  rw [State.conAfter, Con.append_notices]
  exact if_pos hroom

end

/-- Settles O4: the accepted station is written out; SAFETY asserted makes the one stop request of it. -/
theorem imageAcceptedStartsShow : Obligations.ImageAcceptedStartsShow := by
  refine ⟨fun s t img hl hr hf hs ht => ?_, fun s t img hl hr hf hs ht hroom => ?_,
    fun s t img hr => exec_imageAccepted_unread hr⟩
  · refine ⟨(s.acceptAt img t).settleClick img, ?_, ?_⟩
    · rw [exec_imageAccepted hl hr hf, State.acceptAt_concludes hs ht]
    · obtain ⟨hbar, hbeat⟩ : ((s.acceptAt img t).settleClick img).cke.bar = img.startBar 0 ∧
          ((s.acceptAt img t).settleClick img).cke.beat = 1 := by
        simp only [State.settleClick_fields]
        exact ⟨rfl, rfl⟩
      exact ⟨rfl, rfl, rfl, rfl, rfl, rfl, rfl, rfl, rfl, rfl, rfl, rfl, hbar, hbeat, rfl, rfl, rfl, rfl, rfl,
        State.acceptAt_records hr⟩
  · refine ⟨_, (exec_imageAccepted hl hr hf).trans (congrArg _ (State.acceptAt_stops hs ht)), ?_⟩
    exact ⟨rfl, Con.append_loader _ _, State.acceptAt_stop_notices hroom, rfl, rfl, rfl, rfl, rfl, rfl,
      (Psq.beginHold_frame _).2, State.acceptAt_records (t := t) hr⟩

end Sys2Proof.Machine
end

section
/-! The judgement of a CALL and of a RESUME (R69 to R71, R99, R173, R174). -/

namespace Sys2Proof.Machine

section
variable {s : State} {img : Image} {k : Nat}

/-! ## The event of a proposal's arrival -/

/-- The station after a message has been taken that SPU and PSQ alone answer. -/
def State.answered (u : Spu) (q : Psq) (s : State) : State := { s.dropReceived with spu := u, psq := q }

/-- R155, R193: an answer that leaves the show state and the cue makes no video stop and posts nothing. -/
theorem State.answered_concludes {u : Spu} {q : Psq} (hs : u.showState = s.spu.showState)
    (hc : u.cue = s.spu.cue) (ht : s.con.together = []) :
    (s.answered u q).conclude img s = (s.answered u q).settleClick img := by
  refine State.conclude_silent img _ s (fun h => ?_) ht
  rwa [State.videoStopCondition_congr img s (s.answered u q) rfl hs hc] at h

/-- What an arrival answers at SPU and PSQ is what its event leaves. -/
theorem completes_answered {c : Instr} {u : Spu} {q : Psq}
    (he : exec c s = .next ((s.answered u q).conclude img s)) (hs : u.showState = s.spu.showState)
    (hc : u.cue = s.spu.cue) (ht : s.con.together = []) :
    Completes c s (fun v => v.spu = u ∧ v.psq = q ∧ v.con = s.con ∧ v.vsl = s.vsl ∧
      SameClick s.cke v.cke ∧ TookMessage s v) := by
  rw [State.answered_concludes hs hc ht] at he
  exact ⟨_, he, rfl, rfl, rfl, rfl, State.settleClick_same img _, rfl, rfl, rfl, rfl⟩

/-! ## The verdict on a CALL (R69) -/

section
variable {u : Spu} {f : CallFields}

/-- R69 check 1. -/
theorem Spu.earlyVerdict_closed
    (h : u.showState = .stopped ∨ u.showState = .standby ∨ u.showState = .countin) :
    u.earlyVerdict f = some .dissent := if_pos h

/-- R69: with nothing held a CALL for another cue passes checks 1 to 4. -/
theorem State.earlyVerdict_open (h : s.spu.showState = .preshow ∨ s.spu.showState = .run)
    (hn : s.holdsNothing) (hc : f.target ≠ s.spu.cue) : s.spu.earlyVerdict f = none := by
  obtain ⟨hproposal, hobserved, harmed⟩ := hn
  rcases h with h | h <;> simp [Spu.earlyVerdict, h, hc, hproposal, hobserved, harmed]

/-- R69 check 5. -/
theorem Spu.lateVerdict_suspect {source : Bool} (hs : source = false) (h : u.suspect = true) :
    u.lateVerdict img source f = .observe false := by
  simp [Spu.lateVerdict, hs, h]

/-- R69 check 6 at the beat source. -/
theorem Spu.lateVerdict_otherBase {source : Bool} (hs : source = true) (h : f.base ≠ u.cue) :
    u.lateVerdict img source f = .dissent := by
  simp [Spu.lateVerdict, hs, h]

/-- R69: a CALL that passes checks 5 to 9. -/
theorem Spu.lateVerdict_pend {source : Bool} (hs : u.suspect = false ∨ source = true)
    (hb : f.base = u.cue) (hc : f.target ≠ u.cue) (h0 : 0 < f.target) (h1 : f.target < img.cueCount)
    (hw : u.callWindow = none ∨ u.callWindow = some f) : u.lateVerdict img source f = .pend := by
  have hsource : (u.suspect && !source) = false := by rcases hs with h | h <;> simp [h]
  have htarget : ¬ (f.target = 0 ∨ img.cueCount ≤ f.target ∨ f.target = f.base) := by
    rw [hb]
    omega
  have hwindow : ¬ (u.callWindow ≠ none ∧ u.callWindow ≠ some f) := by
    rcases hw with h | h <;> simp [h]
  simp [Spu.lateVerdict, hsource, hb, hb ▸ htarget, hwindow]

theorem Spu.recordCall_early {v : CallVerdict} (h : u.earlyVerdict f = some v) : u.recordCall f = u := by
  simp [Spu.recordCall, h]

theorem Spu.recordCall_late (h : u.earlyVerdict f = none) :
    u.recordCall f = { u with callWindow := some (u.callWindow.getD f) } := by
  simp [Spu.recordCall, h]

theorem Spu.verdict_early {source : Bool} {v : CallVerdict} (h : u.earlyVerdict f = some v) :
    u.verdict img source f = v := by
  simp [Spu.verdict, h]

theorem Spu.verdict_late {source : Bool} (h : u.earlyVerdict f = none) :
    u.verdict img source f = u.lateVerdict img source f := by
  simp [Spu.verdict, h]

/-- R80: a dissent to a CALL marks the station's own as awaiting its verdict. -/
theorem Spu.awaitCall_eq (own : Bool) :
    u.awaitCall own = { u with awaitingCall := u.awaitingCall || own } := by
  cases own <;> simp [Spu.awaitCall]

/-! ## What the verdict does (R70, R71, R80) -/

theorem State.isSource_iff : s.isSource img = true ↔ s.le.beatSource = some img.station := by
  simp [State.isSource]

theorem exec_callArrival (hi : s.image = some img) (ha : Arrives img s k (.call f))
    (hc : img.isCallerStation k = true) :
    exec .callArrival s = .next ((s.dropReceived.takeCall img k f).conclude img s) := by
  have harrives : s.arriving img .call = some (k, .call f) := State.arriving_of img s k (.call f) ha
  refine (withImage_some _ hi).trans ?_
  simp [harrives, State.receiveCall, refusesSender, hc]

theorem State.takeCall_dissent (h : s.spu.verdict img (s.isSource img) f = .dissent) :
    s.dropReceived.takeCall img k f = s.answered
      { s.spu.recordCall f with
        dissent := true, awaitingCall := (s.spu.recordCall f).awaitingCall || k == img.station } s.psq := by
  have hd : s.dropReceived.spu.verdict img (s.dropReceived.isSource img) f = .dissent := h
  rw [State.takeCall, hd]
  exact congrArg (fun u => s.answered u s.psq) (Spu.awaitCall_eq _)

theorem State.takeCall_observe (h : s.spu.verdict img (s.isSource img) f = .observe false) :
    s.dropReceived.takeCall img k f = s.answered
      { s.spu.recordCall f with
        observed := some { proposer := k, call := f, patience := img.patience } } s.psq := by
  have hd : s.dropReceived.spu.verdict img (s.dropReceived.isSource img) f = .observe false := h
  rw [State.takeCall, hd]
  rfl

/-- R70, R99: the target is handed to PSQ with the current cue. -/
theorem State.takeCall_pend (h : s.spu.verdict img (s.isSource img) f = .pend) :
    s.dropReceived.takeCall img k f = s.answered
      { s.spu.recordCall f with
        proposal := some (.call { proposer := k, call := f, patience := img.patience }) }
      (s.psq.handTarget { target := f.target, kind := .call } (s.spu.recordCall f).cue) := by
  have hd : s.dropReceived.spu.verdict img (s.dropReceived.isSource img) f = .pend := h
  rw [State.takeCall, hd]
  rfl

end

/-! ## The verdict on a RESUME (R173) -/

section
variable {u : Spu} {f : ResumeFields}

/-- R173 check 1. -/
theorem Spu.earlyResume_closed (h : u.showState ≠ .standby) : u.earlyResume f = some .dissent :=
  if_pos h

/-- R173: in STANDBY with no proposal pending a RESUME passes checks 1 and 2. -/
theorem Spu.earlyResume_open (h : u.showState = .standby) (hp : u.proposal = none) :
    u.earlyResume f = none := by
  simp [Spu.earlyResume, h, hp]

/-- R173 check 3. -/
theorem Spu.lateResume_unsafe (h : img.cueCount ≤ f.cue ∨ img.resumeSafe f.cue = false) :
    u.lateResume img f = .dissent := if_pos h

/-- R173: a RESUME that passes checks 3 to 5. -/
theorem Spu.lateResume_pend (h1 : f.cue < img.cueCount) (h2 : img.resumeSafe f.cue = true)
    (hb : f.bar = 0 ∨ (img.startBar f.cue ≤ f.bar ∧ f.bar ≤ img.endBar f.cue))
    (hw : u.resumeWindow = none ∨ u.resumeWindow = some f) : u.lateResume img f = .pend := by
  have hcue : ¬ (img.cueCount ≤ f.cue ∨ img.resumeSafe f.cue = false) := by
    simpa [h2] using h1
  have hbar : ¬ (f.bar ≠ 0 ∧ img.inBars f.cue f.bar = false) := by
    rintro ⟨h0, hout⟩
    exact of_decide_eq_false hout (hb.resolve_left h0)
  have hwindow : ¬ (u.resumeWindow ≠ none ∧ u.resumeWindow ≠ some f) := by
    rcases hw with h | h <;> simp [h]
  rw [Spu.lateResume, if_neg hcue, if_neg hbar, if_neg hwindow]

theorem Spu.recordResume_early {v : ResumeVerdict} (h : u.earlyResume f = some v) :
    u.recordResume f = u := by
  simp [Spu.recordResume, h]

theorem Spu.recordResume_late (h : u.earlyResume f = none) :
    u.recordResume f = { u with resumeWindow := some (u.resumeWindow.getD f) } := by
  simp [Spu.recordResume, h]

theorem Spu.resumeVerdict_early {v : ResumeVerdict} (h : u.earlyResume f = some v) :
    u.resumeVerdict img f = v := by
  simp [Spu.resumeVerdict, h]

theorem Spu.resumeVerdict_late (h : u.earlyResume f = none) :
    u.resumeVerdict img f = u.lateResume img f := by
  simp [Spu.resumeVerdict, h]

/-! ## What the verdict does (R71, R174) -/

theorem exec_resumeArrival (hi : s.image = some img) (ha : Arrives img s k (.resume f))
    (hc : img.isCallerStation k = true) :
    exec .resumeArrival s = .next ((s.dropReceived.takeResume img k f).conclude img s) := by
  have harrives : s.arriving img .resume = some (k, .resume f) :=
    State.arriving_of img s k (.resume f) ha
  refine (withImage_some _ hi).trans ?_
  simp [harrives, State.receiveResume, refusesSender, hc]

theorem State.takeResume_dissent (h : s.spu.resumeVerdict img f = .dissent) :
    s.dropReceived.takeResume img k f = s.answered
      { s.spu.recordResume f with
        dissent := true
        awaitingResume := (s.spu.recordResume f).awaitingResume || k == img.station } s.psq := by
  have hd : s.dropReceived.spu.resumeVerdict img f = .dissent := h
  rw [State.takeResume, hd]
  rfl

/-- R174, R99: the restart cue is handed to PSQ with the current cue. -/
theorem State.takeResume_pend (h : s.spu.resumeVerdict img f = .pend) :
    s.dropReceived.takeResume img k f = s.answered
      { s.spu.recordResume f with
        proposal := some (.resume { proposer := k, resume := f, patience := img.resumePatience }) }
      (s.psq.handTarget { target := f.cue, kind := .resume } (s.spu.recordResume f).cue) := by
  have hd : s.dropReceived.spu.resumeVerdict img f = .pend := h
  rw [State.takeResume, hd]
  rfl

end

end

/-- The window that a first or an equal proposal leaves. -/
theorem getD_window {α : Type} {w : Option α} {x : α} (h : w = none ∨ w = some x) : w.getD x = x := by
  rcases h with rfl | rfl <;> rfl

/-- Settles O37: the verdict by the checks of R69 in their order, then what the verdict does. -/
theorem callIsJudged : Obligations.CallIsJudged := by
  intro s img k f hi ha hk ht
  have hexec := exec_callArrival hi ha hk
  refine ⟨fun hst => ?_, fun hst hn hc hs hb h0 h1 hw => ?_, fun hst hn hc hs hsource => ?_,
    fun hst hn hc hb hsource => ?_⟩
  · have hearly := Spu.earlyVerdict_closed (f := f) hst
    rw [State.takeCall_dissent (Spu.verdict_early hearly), Spu.recordCall_early hearly] at hexec
    exact completes_answered hexec rfl rfl ht
  all_goals
    have hearly := State.earlyVerdict_open (f := f) hst hn hc
    have hrecord := Spu.recordCall_late hearly
    have hverdict := Spu.verdict_late (img := img) (source := s.isSource img) hearly
  · have hs' : s.spu.suspect = false ∨ s.isSource img = true := hs.imp_right State.isSource_iff.2
    have hlate := hverdict.trans (Spu.lateVerdict_pend hs' hb hc h0 h1 hw)
    rw [State.takeCall_pend hlate, hrecord, getD_window hw] at hexec
    obtain ⟨u, hu, hspu, hpsq, hrest⟩ := completes_answered hexec rfl rfl ht
    exact ⟨u, hu, hspu, hpsq ▸ Psq.handTarget_hands s.psq _ _, hrest⟩
  · have hs' : s.isSource img = false := Bool.eq_false_iff.2 (mt State.isSource_iff.1 hsource)
    have hlate := hverdict.trans (Spu.lateVerdict_suspect hs' hs)
    rw [State.takeCall_observe hlate, hrecord] at hexec
    exact completes_answered hexec rfl rfl ht
  · have hs' : s.isSource img = true := State.isSource_iff.2 hsource
    have hlate := hverdict.trans (Spu.lateVerdict_otherBase hs' hb)
    rw [State.takeCall_dissent hlate, hrecord] at hexec
    exact completes_answered hexec rfl rfl ht

/-- Settles O38: the verdict by the checks of R173 in their order, then what the verdict does. -/
theorem resumeIsJudged : Obligations.ResumeIsJudged := by
  intro s img k f hi ha hk ht
  have hexec := exec_resumeArrival hi ha hk
  refine ⟨fun hst => ?_, fun hst hp h1 h2 hb hw => ?_, fun hst hp hbad => ?_⟩
  · have hearly := Spu.earlyResume_closed (f := f) hst
    rw [State.takeResume_dissent (Spu.resumeVerdict_early hearly),
      Spu.recordResume_early hearly] at hexec
    exact completes_answered hexec rfl rfl ht
  all_goals
    have hearly := Spu.earlyResume_open (f := f) hst hp
    have hrecord := Spu.recordResume_late hearly
    have hverdict := Spu.resumeVerdict_late (img := img) hearly
  · have hlate := hverdict.trans (Spu.lateResume_pend h1 h2 hb hw)
    rw [State.takeResume_pend hlate, hrecord, getD_window hw] at hexec
    obtain ⟨u, hu, hspu, hpsq, hrest⟩ := completes_answered hexec rfl rfl ht
    exact ⟨u, hu, hspu, hpsq ▸ Psq.handTarget_hands s.psq _ _, hrest⟩
  · have hlate := hverdict.trans (Spu.lateResume_unsafe hbad)
    rw [State.takeResume_dissent hlate, hrecord] at hexec
    exact completes_answered hexec rfl rfl ht

end Sys2Proof.Machine
end

section
/-! A clean vote field at a JOINED station (R28, R29): the characters received, the result handed to the blocks, and
the state in which its decision leaves the station. -/

namespace Sys2Proof.Machine

/-! ## The vote characters (R20 to R22, R28) -/

/-- The character a vote carries where every bit is received as driven. -/
def voteChar (d : Byte) : Character := { kind := .vote, data := d, error := none }

theorem voteBits_toNat (d : Byte) : (charBitsOf .vote d).toNat = 1 + 8 * d.toNat := by
  have hd := d.isLt
  show (BitVec.ofNat 13 (1 + 2 * 0 + 8 * d.toNat)).toNat = _
  rw [BitVec.toNat_ofNat]
  omega

theorem voteBits_getLsbD (d : Byte) (k : Nat) :
    (charBitsOf .vote d).getLsbD k = decide ((1 + 8 * d.toNat) / 2 ^ k % 2 = 1) := by
  rw [BitVec.getLsbD, voteBits_toNat, Nat.testBit_eq_decide_div_mod_eq]

theorem receiveChar_vote (d : Byte) : receiveChar (charBitsOf .vote d) = some (voteChar d) := by
  have hd := d.isLt
  have hstart : (charBitsOf .vote d).getLsbD 0 = true := by
    rw [voteBits_getLsbD, decide_eq_true_eq]
    omega
  have hk1 : (charBitsOf .vote d).getLsbD 1 = false := by
    rw [voteBits_getLsbD, decide_eq_false_iff_not]
    omega
  have hk0 : (charBitsOf .vote d).getLsbD 2 = false := by
    rw [voteBits_getLsbD, decide_eq_false_iff_not]
    omega
  have hstop : (charBitsOf .vote d).getLsbD 12 = false := by
    rw [voteBits_getLsbD, decide_eq_false_iff_not]
    omega
  have hbreak : charBitsOf .vote d ≠ breakBits := fun e => by
    rw [e] at hk1
    cases hk1
  have hdata : BitVec.ofNat 8 ((charBitsOf .vote d).toNat / 8) = d := by
    rw [voteBits_toNat, show (1 + 8 * d.toNat) / 8 = d.toNat by omega, BitVec.ofNat_toNat, BitVec.setWidth_eq]
  simp only [receiveChar, hstart, hk1, hk0, hstop, if_neg hbreak, hdata, CharKind.ofBits]
  rfl

/-- R21: a receiver in step takes each vote character. -/
theorem takeChars_votes (d0 d1 d2 d3 : Byte) :
    takeChars false 0
        [charBitsOf .vote d0, charBitsOf .vote d1, charBitsOf .vote d2, charBitsOf .vote d3] =
      ([some (voteChar d0), some (voteChar d1), some (voteChar d2), some (voteChar d3)], false) := by
  simp [takeChars, receiveChar_vote, resyncAfter, Character.losesSync, voteChar]

/-! ## LE at the vote field complete (R28, R29, R37) -/

/-- R39: sampled bit times reach the silence test alone. -/
theorem Le.sawAll_eq (ws : List Samples) (l : Le) :
    ∃ b n, ws.foldl Le.sawBits l = { l with dominantSeen := b, silenceCount := n } := by
  induction ws generalizing l with
  | nil => exact ⟨_, _, rfl⟩
  | cons w ws ih =>
    obtain ⟨b, n, h⟩ := ih (l.sawBits w)
    refine ⟨b, n, h.trans ?_⟩
    unfold Le.sawBits
    split <;> rfl

/-- R28, R29: LE as it hands on a clean round. -/
def Le.voted (img : Image) (r : Round) (votes : List Samples) (l : Le) : Le :=
  (votes.foldl Le.sawBits
    (l.judged r true (takeChars l.resync 0 votes).1 (takeChars l.resync 0 votes).2)).takeClean img

/-- R29: the station as LE hands on a clean round. -/
def State.voted (img : Image) (r : Round) (votes : List Samples) (s : State) : State :=
  (s.reach (positionEnd img r.edge 5)).onLe (Le.voted img r votes)

section
variable {s : State} {img : Image} {r : Round} {d0 d1 d2 d3 : Byte} {v0 v1 v2 v3 : Samples}

@[simp] theorem Le.voted_frame (img : Image) (r : Round) (votes : List Samples) (l : Le) :
    (l.voted img r votes).state = l.state ∧ (l.voted img r votes).localRunning = l.localRunning ∧
      (l.voted img r votes).roundCount = l.roundCount ∧
      (l.voted img r votes).readBackRun = l.readBackRun ∧
      (l.voted img r votes).beatSource =
        img.reference (mapOf (takeChars l.resync 0 votes).1) := by
  obtain ⟨b, n, h⟩ := Le.sawAll_eq votes
    (l.judged r true (takeChars l.resync 0 votes).1 (takeChars l.resync 0 votes).2)
  rw [Le.voted, h]
  exact ⟨rfl, rfl, rfl, rfl, rfl⟩

/-- R28: a clean round's characters. -/
theorem CleanRound.taken (h : CleanRound r s d0 d1 d2 d3 [v0, v1, v2, v3]) :
    takeChars s.le.resync 0 [v0, v1, v2, v3] =
      ([some (voteChar d0), some (voteChar d1), some (voteChar d2), some (voteChar d3)], false) := by
  obtain ⟨-, -, -, -, hresync, -, hvotes, -⟩ := h
  rw [hresync, hvotes, takeChars_votes]

/-- R28: a clean round is judged clean. -/
theorem CleanRound.judged (h : CleanRound r s d0 d1 d2 d3 [v0, v1, v2, v3]) :
    r.judge [some (voteChar d0), some (voteChar d1), some (voteChar d2), some (voteChar d3)] = true := by
  obtain ⟨-, -, hmark, hperiod, -, hd7, -, -⟩ := h
  have hgood : [some (voteChar d0), some (voteChar d1), some (voteChar d2), some (voteChar d3)].all
      goodVote = true := rfl
  have hdata : (dataOf (some (voteChar d0))).getLsbD 7 = false := hd7
  simp only [Round.judge, hmark, hperiod, hgood, List.getD_cons_zero, hdata, Bool.and_self, Bool.not_false]

/-- R60: the beat source that a clean round gives. -/
theorem CleanRound.beatSource (h : CleanRound r s d0 d1 d2 d3 [v0, v1, v2, v3]) :
    (s.voted img r [v0, v1, v2, v3]).le.beatSource = img.reference (presenceMap d1 d2 d3) := by
  simp only [State.voted, State.onLe_le, State.reach_le, Le.voted_frame, h.taken]
  rfl

/-- R37: a read-back that does not fail for the third time in a row leaves the LE state. -/
theorem State.countReadBack_kept {drove failed : Bool}
    (h : drove = true → failed = true → s.le.readBackRun < 2) :
    s.countReadBack img drove failed = s.onLe (fun l =>
      { l with readBackRun :=
          if drove then (if failed then l.readBackRun + 1 else 0) else l.readBackRun }) := by
  cases drove
  · rfl
  · have hrun : ¬ 3 ≤ (if failed = true then s.le.readBackRun + 1 else 0) := by
      cases failed
      · simp
      · have := h rfl rfl
        simp only [if_true]
        omega
    exact if_neg hrun

/-- R29: LE hands a clean round on, where it takes the line. -/
theorem State.handRound_voted {votes : List Samples} {seen : Contributions}
    (h : (s.voted img r votes).le.takesLine = true) :
    State.handRound img r true seen ((s.reach (positionEnd img r.edge 5)).onLe (fun l =>
        votes.foldl Le.sawBits (l.judged r true (takeChars s.le.resync 0 votes).1
          (takeChars s.le.resync 0 votes).2))) =
      (s.voted img r votes).handResult img seen r.edge := if_pos h

/-- R28, R29: the event of a clean vote field at a JOINED station that no video stop can meet. -/
theorem exec_voteFieldComplete_clean (hi : s.image = some img) (hj : s.le.state = .joined)
    (hr : CleanRound r s d0 d1 d2 d3 [v0, v1, v2, v3]) (hv : img.roles.videoCritical = false) :
    exec (.voteFieldComplete v0 v1 v2 v3) s = .next
      (((((s.voted img r [v0, v1, v2, v3]).handResult img (Contributions.ofByte d0) r.edge).countReadBack
        img r.drove (r.failsReadBack [v0, v1, v2, v3])).settleClick img).flush) := by
  have hclean : r.judge (takeChars s.le.resync 0 [v0, v1, v2, v3]).1 = true := by
    rw [hr.taken]
    exact hr.judged
  have hseen : dataOf ((takeChars s.le.resync 0 [v0, v1, v2, v3]).1.getD 0 none) = d0 := by
    rw [hr.taken]
    rfl
  obtain ⟨hround, hstage, -⟩ := hr
  have hhears : (decide (r.stage = .voting) && s.le.hearsLine) = true := by
    simp [hstage, Le.hearsLine, hj]
  have htakes : (s.voted img r [v0, v1, v2, v3]).le.takesLine = true := by
    simp [State.voted, Le.takesLine, hj]
  refine (withImage_some _ hi).trans ?_
  simp only [hround, hhears, if_true, hclean, hseen, hj, State.handRound_voted htakes, State.afterRound,
    State.conclude, State.videoStop_uncritical img _ _ hv]

end

end Sys2Proof.Machine
end

section
/-! The decision of a vote field apart from what surrounds it: the notices it posts, what is heard before it, and the
windows closed after it (R29, R80, R193). -/

namespace Sys2Proof.Machine

/-! ## Notices posted in the event (R193) -/

/-- R193: the step has posted a record, with the round count as it stands and a cue index. -/
def Posted (s : State) (cue : Nat) (kind : NoticeKind) (station d1 d2 : Nat) : Prop :=
  { kind := kind, round := s.le.roundCount, cue := cue, station := station,
    detail1 := d1, detail2 := d2 } ∈ s.con.together.map Prod.snd

/-- A later state of the same event: LE and the instant stand, and no posting is lost. -/
structure Later (s t : State) : Prop where
  le : t.le = s.le
  now : t.now = s.now
  postings : ∀ n, n ∈ s.con.together.map Prod.snd → n ∈ t.con.together.map Prod.snd

/-- A later state of the same event in which the show stands: VSL and CON alone have changed. -/
structure SameShow (s t : State) : Prop extends Later s t where
  spu : t.spu = s.spu
  psq : t.psq = s.psq
  cke : t.cke = s.cke

section
variable {s t u : State} {img : Image} {o : Origin} {kind : NoticeKind} {cue k d1 d2 : Nat}

theorem Later.refl (s : State) : Later s s := ⟨rfl, rfl, fun _ => id⟩

theorem Later.onSpu {f : Spu → Spu} (h : Later s t) : Later s (t.onSpu f) := ⟨h.le, h.now, h.postings⟩

theorem Later.onPsq {f : Psq → Psq} (h : Later s t) : Later s (t.onPsq f) := ⟨h.le, h.now, h.postings⟩

theorem Later.onCke {f : Cke → Cke} (h : Later s t) : Later s (t.onCke f) := ⟨h.le, h.now, h.postings⟩

theorem Later.handVideo (h : Later s t) : Later s (t.handVideo img) := ⟨h.le, h.now, h.postings⟩

theorem Later.post (h : Later s t) : Later s (t.post o kind k d1 d2) :=
  ⟨h.le, h.now, fun n x => (State.postNotice_mem o _ n t).2 (.inr (h.postings n x))⟩

theorem Later.isSource (h : Later s t) (img : Image) : t.isSource img = s.isSource img :=
  congrArg (fun l : Le => l.beatSource == some img.station) h.le

theorem Later.posted (h : Later s t) (g : Posted s cue kind k d1 d2) : Posted t cue kind k d1 d2 := by
  unfold Posted
  rw [h.le]
  exact h.postings _ g

theorem State.post_posted (o : Origin) (kind : NoticeKind) (k d1 d2 : Nat) (s : State) :
    Posted (s.post o kind k d1 d2) s.spu.cue kind k d1 d2 :=
  (State.postNotice_mem o _ _ s).2 (.inl rfl)

/-- R80: the proposer of a dropped CALL is told. -/
theorem State.callDropped_posted (o : Origin) (d1 d2 : Nat) (s : State) (h : k = img.station) :
    Posted (s.callDropped img o k d1 d2) s.spu.cue .callDropped img.station d1 d2 := by
  rw [State.callDropped, if_pos h]
  exact s.post_posted o .callDropped img.station d1 d2

theorem SameShow.refl (s : State) : SameShow s s := ⟨Later.refl s, rfl, rfl, rfl⟩

theorem SameShow.onVsl {f : Vsl → Vsl} (h : SameShow s t) : SameShow s (t.onVsl f) :=
  ⟨⟨h.le, h.now, h.postings⟩, h.spu, h.psq, h.cke⟩

theorem SameShow.post (h : SameShow s t) : SameShow s (t.post o kind k d1 d2) :=
  ⟨h.toLater.post, h.spu, h.psq, h.cke⟩

theorem SameShow.ite {c : Prop} [Decidable c] (h : SameShow s t) (g : SameShow s u) :
    SameShow s (if c then t else u) := by
  split
  · exact h
  · exact g

theorem SameShow.callDropped (h : SameShow s t) : SameShow s (t.callDropped img o k d1 d2) := h.post.ite h

theorem SameShow.resumeDropped (h : SameShow s t) : SameShow s (t.resumeDropped img o k d1) := h.post.ite h

/-! ## What is heard before the decision (R80, R151, R176, R196) -/

theorem SameShow.takePitCamfail {b : Bool} (h : SameShow s t) : SameShow s (t.takePitCamfail img b) :=
  h.ite h.onVsl.post

theorem SameShow.lightLamp {b : Bool} (h : SameShow s t) : SameShow s (t.lightLamp img b) :=
  SameShow.ite ⟨⟨h.le, h.now, h.postings⟩, h.spu, h.psq, h.cke⟩ h

/-- R151, R196, R80: the station after VSL and CON have taken the result and SPU has reported what awaited it. -/
def State.heard (img : Image) (seen : Contributions) (s : State) : State :=
  ((s.takePitCamfail img seen.camfail).lightLamp img seen.attend).reportAwaiting img seen

/-- R80, R176: the marks of a CALL and of a RESUME awaiting their verdicts are cleared. -/
def Spu.answered (u : Spu) : Spu := { u with awaitingCall := false, awaitingResume := false }

/-- The show stands while a result is heard, but for the marks of what awaited it. -/
theorem State.heard_eq (img : Image) (c : Contributions) (s : State) :
    ∃ t, SameShow s t ∧ s.heard img c = t.onSpu Spu.answered := by
  have hlit := (SameShow.refl s).takePitCamfail (img := img) (b := c.camfail) |>.lightLamp (img := img)
    (b := c.attend)
  unfold State.heard State.reportAwaiting
  refine ⟨_, ?_, rfl⟩
  exact
    have hcall := hlit.callDropped.ite hlit
    hcall.resumeDropped.ite hcall

/-- With nothing awaiting a verdict and CAMFAIL as it was, nothing heard is posted. -/
theorem State.heard_silent (img : Image) (c : Contributions) (s : State)
    (h1 : s.spu.awaitingCall = false) (h2 : s.spu.awaitingResume = false)
    (h3 : c.camfail = s.vsl.pitCamfail) :
    (s.heard img c).con.together = s.con.together ∧ (s.heard img c).con.notices = s.con.notices := by
  unfold State.heard State.takePitCamfail State.lightLamp State.reportAwaiting
  rw [if_pos h3]
  split <;> simp [h1, h2]

/-! ## The end of the event (R69, R71, R173, R186) -/

/-- The station as the decision of a clean result leaves it. -/
def State.decided (img : Image) (seen : Contributions) (edge : Nat) (s : State) : State :=
  let x := s.countResult img seen edge
  (((((x.1.onCke Cke.withdrawSampled).takeReports img x.2).heard img seen).decideVote img seen).takeMatch
    img x.2)

theorem State.handResult_eq (img : Image) (seen : Contributions) (edge : Nat) (s : State) :
    s.handResult img seen edge =
      ((s.decided img seen edge).onSpu Spu.closeWindow).referenceWait img := rfl

theorem Spu.waitReference_eq (u : Spu) (joined alone : Bool) :
    ∃ x n, u.waitReference joined alone = { u with suspect := x, refWait := n } := by
  unfold Spu.waitReference
  split
  · split
    · exact ⟨_, _, rfl⟩
    · exact ⟨_, _, rfl⟩
  · exact ⟨_, _, rfl⟩

/-- R186: the reference wait changes the suspect flag and the count alone, and the flag at the beat source alone. -/
theorem State.referenceWait_eq (img : Image) (s : State) :
    ∃ x n, s.referenceWait img = s.onSpu (fun _ => { s.spu with suspect := x, refWait := n }) ∧
      (s.isSource img = false → x = s.spu.suspect) := by
  unfold State.referenceWait
  cases hs : s.isSource img with
  | true =>
    obtain ⟨x, n, h⟩ := s.spu.waitReference_eq (s.le.state == .joined)
      (s.le.thisMap == stationSet img.station)
    exact ⟨x, n, congrArg (fun v => s.onSpu (fun _ => v)) h, nofun⟩
  | false =>
    rw [if_neg Bool.false_ne_true]
    split
    · exact ⟨_, _, rfl, fun _ => rfl⟩
    · exact ⟨_, _, rfl, fun _ => rfl⟩

/-- R69, R71, R173, R186: SPU v' as the windows of a vote field close on v and the reference wait counts. -/
def Closes (v v' : Spu) : Prop :=
  ∃ x n, v' = { v with
    dissent := false, callWindow := none, resumeWindow := none, suspect := x, refWait := n }

/-- The station u at the end of a clean vote field's event whose decision left it at t. -/
structure EndsVote (img : Image) (t u : State) : Prop where
  spu : Closes t.spu u.spu
  suspect : t.isSource img = false → u.spu.suspect = t.spu.suspect
  psq : u.psq = t.psq
  cke : u.cke = t.cke.settle t.clickRuns (t.isSource img) t.now
  roundCount : u.le.roundCount = t.le.roundCount
  notices : u.con.notices = t.flush.con.notices

/-- R193: what the event posted is told at its end. -/
theorem EndsVote.told (h : EndsVote img t u) (g : Posted t cue kind k d1 d2) : Told u cue kind k d1 d2 := by
  unfold Told
  rw [h.roundCount, h.notices]
  exact State.flush_tells t _ g

theorem EndsVote.held (h : EndsVote img t u) :
    u.spu.proposal = t.spu.proposal ∧ u.spu.observed = t.spu.observed := by
  obtain ⟨x, n, hspu⟩ := h.spu
  rw [hspu]
  exact ⟨rfl, rfl⟩

/-- The click record stands but for its timers. -/
theorem EndsVote.sameClick (h : EndsVote img t u) : SameClick t.cke u.cke := by
  rw [h.cke]
  exact SameClick.settle _ _ _ _

/-- R121: the beat timer at the end of the event, where the click runs. -/
theorem EndsVote.timer (h : EndsVote img t u) (hr : t.clickRuns = true) :
    (t.isSource img = true → t.cke.beatTimer = none → StartsBeatTimer t.cke.shadow t.now u.cke) ∧
      (t.isSource img = false → u.cke.beatTimer = none) := by
  rw [h.cke, hr]
  refine ⟨fun hs hb => ?_, fun hs => ?_⟩
  · rw [hs]
    exact Cke.settle_starts t.cke t.now hb
  · rw [hs]
    rfl

/-- The windows close, the reference wait counts, and the click timers settle. -/
theorem EndsVote.of_closed (t : State) (g : Le → Le)
    (hg : ∀ l, (g l).roundCount = l.roundCount ∧ (g l).beatSource = l.beatSource) :
    EndsVote img t
      (((((t.onSpu Spu.closeWindow).referenceWait img).onLe g).settleClick img).flush) := by
  obtain ⟨hcount, hsource⟩ := hg t.le
  obtain ⟨x, n, hwait, hx⟩ := State.referenceWait_eq img (t.onSpu Spu.closeWindow)
  have hsrc : (((t.onSpu Spu.closeWindow).referenceWait img).onLe g).isSource img = t.isSource img := by
    rw [hwait]
    exact congrArg (fun b => b == some img.station) hsource
  refine ⟨⟨x, n, ?_⟩, fun h => ?_, ?_, ?_, ?_, ?_⟩
  · rw [hwait]
    rfl
  · rw [hwait]
    exact hx h
  · rw [hwait]
    rfl
  · rw [← hsrc, hwait]
    rfl
  · rw [hwait]
    exact hcount
  · rw [hwait]
    rfl

end

section
variable {s : State} {img : Image} {r : Round} {d0 d1 d2 d3 : Byte} {v0 v1 v2 v3 : Samples}

/-- A property of the station that the decision and the end of the event give holds after a clean vote field. -/
theorem completes_cleanVote (hi : s.image = some img) (hj : s.le.state = .joined)
    (hr : CleanRound r s d0 d1 d2 d3 [v0, v1, v2, v3]) (hv : img.roles.videoCritical = false)
    {p : State → Prop}
    (h : ∀ u, EndsVote img
      ((s.voted img r [v0, v1, v2, v3]).decided img (Contributions.ofByte d0) r.edge) u → p u) :
    Completes (.voteFieldComplete v0 v1 v2 v3) s p := by
  have hexec := exec_voteFieldComplete_clean hi hj hr hv
  obtain ⟨hle, -⟩ := (s.voted img r [v0, v1, v2, v3]).handResult_frame img (Contributions.ofByte d0) r.edge
  obtain ⟨-, -, -, -, -, -, -, hrun⟩ := hr
  rw [State.countReadBack_kept (fun hd hf => ?_), State.handResult_eq] at hexec
  · exact ⟨_, hexec, h _ (EndsVote.of_closed _ _ (fun _ => ⟨rfl, rfl⟩))⟩
  · rw [hle]
    simpa [State.voted] using hrun hj hd hf

end

end Sys2Proof.Machine
end

section
/-! A commit that takes effect (R76, R82, R85 to R87): what it does to the show, to the ports' target and to the click. -/

namespace Sys2Proof.Machine

/-! ## A cue start (R128, R129) -/

/-- The click record as a cue start with launch leaves it; the launch marker is set in a click cue alone. -/
structure Started (img : Image) (cue : Nat) (k : Cke) : Prop where
  launch : k.launch = !img.isFree cue
  bar : k.bar = img.startBar cue
  beat : k.beat = 1
  vamp : k.vamp = none
  compare : k.compare = if img.isFree cue then none else compareOf img cue
  override : img.isFree cue = false → k.override = none
  part : k.part = img.clickOf cue

section
variable {img : Image} {cue : Nat} {part : ClickPart}

theorem Image.isFree_iff : img.isFree cue = true ↔ img.clickOf cue = none := Option.isNone_iff_eq_none

theorem Image.isFree_of_click (h : img.clickOf cue = some part) : img.isFree cue = false := by
  rw [Image.isFree, h]
  rfl

theorem Cke.cueStart_click (k : Cke) (launch : Bool) (h : img.clickOf cue = some part) :
    k.cueStart img cue launch =
      if launch then
        { k.clickStart img cue part with bar := img.startBar cue, beat := 1, launch := true }
      else k.clickStart img cue part := by
  rw [Cke.cueStart, h]

theorem Cke.cueStart_free (k : Cke) (launch : Bool) (h : img.clickOf cue = none) :
    k.cueStart img cue launch = k.freeStart img cue := by
  rw [Cke.cueStart, h]

theorem Cke.cueStart_started (k : Cke) (img : Image) (cue : Nat) :
    Started img cue (k.cueStart img cue (!img.isFree cue)) := by
  cases hp : img.clickOf cue with
  | none =>
    have hfree := Image.isFree_iff.2 hp
    rw [Cke.cueStart_free k _ hp]
    exact ⟨by rw [hfree]; rfl, rfl, rfl, rfl, by rw [hfree]; rfl, fun h => by simp [hfree] at h, hp.symm⟩
  | some part =>
    have hfree := Image.isFree_of_click hp
    rw [Cke.cueStart_click k _ hp, hfree]
    exact ⟨by rw [hfree]; rfl, rfl, rfl, rfl, by rw [hfree]; rfl, fun _ => rfl, hp.symm⟩

/-- A cue start leaves the timers. -/
theorem Cke.cueStart_timers (k : Cke) (img : Image) (cue : Nat) (launch : Bool) :
    (k.cueStart img cue launch).beatTimer = k.beatTimer ∧
      (k.cueStart img cue launch).shadow = k.shadow := by
  cases hp : img.clickOf cue with
  | none =>
    rw [Cke.cueStart_free k _ hp]
    exact ⟨rfl, rfl⟩
  | some part =>
    rw [Cke.cueStart_click k _ hp]
    cases launch <;> exact ⟨rfl, rfl⟩

theorem Started.sameClick {k k' : Cke} (h : Started img cue k) (g : SameClick k k') :
    Started img cue k' := by
  obtain ⟨-, hoverride, -, hbar, hbeat, hvamp, hlaunch, -, -, hcompare, hpart, -, -⟩ := g
  exact ⟨hlaunch.trans h.launch, hbar.trans h.bar, hbeat.trans h.beat, hvamp.trans h.vamp,
    hcompare.trans h.compare, fun x => hoverride.trans (h.override x), hpart.trans h.part⟩

end

/-! ## A commit (R85 to R87) -/

/-- The later state t that a commit leaves when it takes effect at s. -/
structure Applies (img : Image) (c : Commit) (s t : State) : Prop extends Later s t where
  spu : t.spu = { s.spu.committed img c with restartRecall := false }
  target : t.psq.target = s.psq.target
  cke : t.cke =
    if c.how = .downbeat then s.cke else s.cke.cueStart img c.target (!img.isFree c.target)
  posted : Posted t c.target (if c.forced then .cueLate else .cue) c.proposer c.how.code (bit c.observed)

section
variable {s t : State} {img : Image} {c : Commit}

theorem Later.fireRequest {form : FireForm} {x : Nat} (h : Later s t) :
    Later s (t.fireRequest img form x) := by
  unfold State.fireRequest
  dsimp only
  split <;> split
  · exact h.onSpu.post.post.onPsq
  · exact h.onSpu.post.onPsq
  · exact h.onSpu.post.onPsq
  · exact h.onSpu.onPsq

/-- R105, R109, R189: a fire request discharges the restart recall and leaves the pending target. -/
theorem State.fireRequest_frame (img : Image) (form : FireForm) (x : Nat) (s : State) :
    (s.fireRequest img form x).spu = { s.spu with restartRecall := false } ∧
      (s.fireRequest img form x).psq.target = s.psq.target ∧
      (s.fireRequest img form x).cke = s.cke := by
  unfold State.fireRequest
  dsimp only
  split <;> split
  all_goals simp

/-- R85: the record and the notice of a commit, before its hand-offs. -/
def State.recorded (img : Image) (c : Commit) (s : State) : State :=
  (s.onSpu (fun u => u.committed img c)).post .spu (if c.forced then .cueLate else .cue) c.proposer
    c.how.code (bit c.observed)

/-- R85: a commit of another cue takes effect. -/
theorem State.applyCommit_applies (h : c.target ≠ s.spu.cue) : Applies img c s (s.applyCommit img c) := by
  have hposted : Posted (s.recorded img c) c.target (if c.forced then .cueLate else .cue) c.proposer
      c.how.code (bit c.observed) := State.post_posted _ _ _ _ _ _
  have hlater : Later s (s.recorded img c) := (Later.refl s).onSpu.post
  have hfire := (Later.refl (s.recorded img c)).fireRequest (img := img) (form := .ordinary) (x := c.target)
  obtain ⟨hspu, htarget, hcke⟩ := (s.recorded img c).fireRequest_frame img .ordinary c.target
  rw [State.applyCommit, if_neg h]
  by_cases hh : c.how = .downbeat
  · simp only [if_pos hh]
    exact ⟨hlater.fireRequest.handVideo, hspu, htarget, (if_pos hh).symm ▸ hcke,
      hfire.handVideo.posted hposted⟩
  · simp only [if_neg hh]
    exact ⟨hlater.fireRequest.onCke.handVideo, hspu, htarget,
      (if_neg hh).symm ▸ congrArg (fun k => k.cueStart img c.target (!img.isFree c.target)) hcke,
      hfire.onCke.handVideo.posted hposted⟩

/-- R76, R85: a commit for the current cue changes nothing. -/
theorem State.applyCommit_current (h : c.target = s.spu.cue) : s.applyCommit img c = s := if_pos h

/-- R85: the click after a commit that CKE is told of: a cue start with launch. -/
theorem Applies.started (h : Applies img c s t) (hh : c.how ≠ .downbeat) : Started img c.target t.cke := by
  rw [h.cke, if_neg hh]
  exact Cke.cueStart_started _ _ _

theorem Applies.timers (h : Applies img c s t) :
    t.cke.beatTimer = s.cke.beatTimer ∧ t.cke.shadow = s.cke.shadow := by
  rw [h.cke]
  split
  · exact ⟨rfl, rfl⟩
  · exact Cke.cueStart_timers _ _ _ _

/-- R85: SPU's record after a commit. -/
structure Committed (img : Image) (c : Commit) (v v' : Spu) : Prop where
  cue : v'.cue = c.target
  showState : v'.showState = .run
  lastTransition : v'.lastTransition = some (v.cue, c.target)
  late : v'.late = if c.how = .autoGo then v.late else c.forced
  launchPending : v'.launchPending = (c.how != .downbeat && !img.isFree c.target)
  proposal : v'.proposal = v.proposal
  observed : v'.observed = v.observed
  armed : v'.armed = v.armed

theorem Applies.committed (h : Applies img c s t) : Committed img c s.spu t.spu := by
  rw [h.spu]
  exact ⟨rfl, rfl, rfl, rfl, rfl, rfl, rfl, rfl⟩

/-- The end of a vote field leaves the record of a commit. -/
theorem Committed.closes {v v' v'' : Spu} (h : Committed img c v v') (g : Closes v' v'') :
    Committed img c v v'' := by
  obtain ⟨x, n, rfl⟩ := g
  exact ⟨h.cue, h.showState, h.lastTransition, h.late, h.launchPending, h.proposal, h.observed, h.armed⟩

/-- R82: the commit of an observed CALL clears the suspect flag. -/
theorem State.takeEffect_observed (ho : c.observed = true) (h0 : c.target ≠ 0)
    (h1 : c.target < img.cueCount) :
    s.takeEffect img c = (s.applyCommit img c).onSpu Spu.clearSuspect := by
  have hrange : ¬ (c.target = 0 ∨ img.cueCount ≤ c.target) := by omega
  rw [State.takeEffect, if_pos ho, State.applyObserved, if_neg hrange]

/-- R82: an observed CALL whose target is 0 or out of range is dropped without effect. -/
theorem State.takeEffect_outOfRange (ho : c.observed = true)
    (h : c.target = 0 ∨ img.cueCount ≤ c.target) : s.takeEffect img c = s := by
  rw [State.takeEffect, if_pos ho, State.applyObserved, if_pos h]

theorem State.takeEffect_pending (ho : c.observed = false) :
    s.takeEffect img c = s.applyCommit img c := by
  rw [State.takeEffect, if_neg (Bool.eq_false_iff.1 ho)]

end

end Sys2Proof.Machine
end

section
/-! The decision of a pending and of an observed CALL (R73 to R77, R81, R82). -/

namespace Sys2Proof.Machine

/-! ## A vote field that counts no beat -/

/-- The station w as it comes from s to the decision of a clean vote field that counts no beat, in a round that gives
a presence map. -/
structure ComesToVote (img : Image) (r : Round) (map : StationSet) (c : Contributions) (s w : State) :
    Prop where
  spu : w.spu = s.spu.answered
  psq : w.psq = s.psq
  click : SameClick s.cke w.cke
  beatTimer : w.cke.beatTimer = s.cke.beatTimer
  shadow : w.cke.shadow = s.cke.shadow
  now : w.now = max s.now (r.edge + 5 * img.charTime)
  beatSource : w.le.beatSource = img.reference map
  roundCount : w.le.roundCount = s.le.roundCount
  silent : s.con.together = [] → s.spu.awaitingCall = false → s.spu.awaitingResume = false →
    c.camfail = s.vsl.pitCamfail → w.con.together = [] ∧ w.con.notices = s.con.notices

section
variable {s : State} {img : Image} {r : Round} {d0 d1 d2 d3 : Byte} {v0 v1 v2 v3 : Samples}

theorem Cke.withdrawSampled_timers (k : Cke) :
    k.withdrawSampled.beatTimer = k.beatTimer ∧ k.withdrawSampled.shadow = k.shadow := by
  unfold Cke.withdrawSampled
  split <;> exact ⟨rfl, rfl⟩

theorem ComesToVote.of_heard (hr : CleanRound r s d0 d1 d2 d3 [v0, v1, v2, v3]) (c : Contributions) :
    ComesToVote img r (presenceMap d1 d2 d3) c s
      (((s.voted img r [v0, v1, v2, v3]).onCke Cke.withdrawSampled).heard img c) := by
  obtain ⟨t, ht, he⟩ := ((s.voted img r [v0, v1, v2, v3]).onCke Cke.withdrawSampled).heard_eq img c
  obtain ⟨hbeat, hshadow⟩ := s.cke.withdrawSampled_timers
  have hquiet := ((s.voted img r [v0, v1, v2, v3]).onCke Cke.withdrawSampled).heard_silent img c
  have hcke : t.cke = s.cke.withdrawSampled := ht.cke
  have hle : t.le = (s.voted img r [v0, v1, v2, v3]).le := ht.le
  refine ⟨?_, ?_, ?_, ?_, ?_, ?_, ?_, ?_, fun h0 h1 h2 h3 => ?_⟩
  · rw [he]
    exact congrArg Spu.answered ht.spu
  · rw [he]
    exact ht.psq
  · rw [he]
    exact hcke ▸ SameClick.withdrawSampled s.cke
  · rw [he]
    exact hcke ▸ hbeat
  · rw [he]
    exact hcke ▸ hshadow
  · rw [he]
    exact ht.now
  · rw [he]
    exact (congrArg Le.beatSource hle).trans hr.beatSource
  · rw [he]
    refine (congrArg Le.roundCount hle).trans ?_
    simp [State.voted]
  · obtain ⟨htogether, hnotices⟩ := hquiet h1 h2 h3
    exact ⟨htogether.trans h0, hnotices⟩

/-- R73: a vote field without STOP, outside STOPPED, decides the proposal held. -/
theorem State.decideVote_proposal {c : Contributions} (h1 : c.stop = false)
    (h2 : s.spu.showState ≠ .stopped) : s.decideVote img c = s.decideProposal img c := by
  rw [State.decideVote, if_neg (Bool.eq_false_iff.1 h1), if_neg h2]

theorem completes_uncounted (hi : s.image = some img) (hj : s.le.state = .joined)
    (hr : CleanRound r s d0 d1 d2 d3 [v0, v1, v2, v3]) (hv : img.roles.videoCritical = false)
    (hst : s.spu.showState = .preshow ∨ s.spu.showState = .run) (h0 : d0.getLsbD 0 = false)
    (h3 : d0.getLsbD 3 = false) {p : State → Prop}
    (h : ∀ w u, ComesToVote img r (presenceMap d1 d2 d3) (Contributions.ofByte d0) s w →
      EndsVote img (w.decideProposal img (Contributions.ofByte d0)) u → p u) :
    Completes (.voteFieldComplete v0 v1 v2 v3) s p := by
  have hcomes := ComesToVote.of_heard (img := img) hr (Contributions.ofByte d0)
  have hbeat : (Contributions.ofByte d0).beat = false := h3
  have huncounted : (s.voted img r [v0, v1, v2, v3]).countResult img (Contributions.ofByte d0) r.edge =
      (s.voted img r [v0, v1, v2, v3], Reports.quiet) := by
    simp [State.countResult, hbeat]
  refine completes_cleanVote hi hj hr hv (fun u hu => h _ u hcomes ?_)
  rw [State.decided, huncounted] at hu
  rw [← State.decideVote_proposal h0]
  · exact hu
  · rw [hcomes.spu]
    rcases hst with hst | hst
    all_goals
      show s.spu.showState ≠ .stopped
      rw [hst]
      nofun

end

/-! ## The decision (R73, R81) -/

section
variable {s : State} {img : Image} {c : Contributions} {h : HeldCall}

theorem State.decideProposal_call (hp : s.spu.proposal = some (.call h)) :
    s.decideProposal img c = s.decideCall img c h := by
  rw [State.decideProposal, hp]

theorem State.decideProposal_observed (hp : s.spu.proposal = none) (ho : s.spu.observed = some h) :
    s.decideProposal img c = s.decideObserved img c h := by
  rw [State.decideProposal, hp, ho]

theorem State.decideCall_dissent (hd : c.dissent = true) :
    s.decideCall img c h = s.clearProposal.callDropped img .spu h.proposer 1 0 := if_pos hd

theorem State.decideCall_waits (hd : c.dissent = false) (hn : c.notReady = true) (hp : 0 < h.patience) :
    s.decideCall img c h = s.onSpu (fun u =>
      { u with proposal := some (.call { h with patience := h.patience - 1 }) }) := by
  rw [State.decideCall, if_neg (Bool.eq_false_iff.1 hd), if_pos hn, if_pos hp]

/-- R73: a CALL commits, forced when NOTREADY stands at patience 0. -/
theorem State.decideCall_commits (hd : c.dissent = false) (hn : c.notReady = true → h.patience = 0) :
    s.decideCall img c h = s.clearProposal.commitCall img h c.notReady false := by
  rw [State.decideCall, if_neg (Bool.eq_false_iff.1 hd)]
  cases hr : c.notReady with
  | true => rw [if_pos rfl, if_neg (by rw [hn hr]; exact Nat.lt_irrefl 0)]
  | false => rw [if_neg Bool.false_ne_true]

/-- R81: the observed CALL is no longer held. -/
def State.clearObserved (s : State) : State := s.onSpu (fun u => { u with observed := none })

theorem State.decideObserved_dissent (hd : c.dissent = true) :
    s.decideObserved img c h = s.clearObserved.callDropped img .spu h.proposer 1 0 := if_pos hd

theorem State.decideObserved_waits (hd : c.dissent = false) (hn : c.notReady = true)
    (hp : 0 < h.patience) : s.decideObserved img c h = s.onSpu (fun u =>
      { u with observed := some { h with patience := h.patience - 1 } }) := by
  simp only [State.decideObserved, hd, hn, hp, Bool.false_eq_true, if_false, if_true]

theorem State.decideObserved_commits (hd : c.dissent = false) (hn : c.notReady = true → h.patience = 0) :
    s.decideObserved img c h = s.clearObserved.commitCall img h c.notReady true := by
  cases hr : c.notReady with
  | true => simp [State.decideObserved, State.clearObserved, hd, hr, hn hr]
  | false => simp [State.decideObserved, State.clearObserved, hd, hr]

/-! ## At once or at the next downbeat (R76, R77) -/

/-- R76: the commit of a held CALL that takes effect at its vote field. -/
def HeldCall.commit (h : HeldCall) (forced observed : Bool) : Commit :=
  { target := h.call.target, proposer := h.proposer, how := .immediate, forced := forced,
    observed := observed }

/-- R77: the armed GO of a held CALL. -/
def HeldCall.arm (h : HeldCall) (forced observed : Bool) : Armed :=
  { proposer := h.proposer, call := h.call, forced := forced, observed := observed }

theorem State.commitCall_immediate (forced observed : Bool)
    (ha : h.call.downbeat = false ∨ img.isFree s.spu.cue = true) :
    s.commitCall img h forced observed = s.takeEffect img (h.commit forced observed) := by
  refine if_pos ?_
  rcases ha with ha | ha <;> simp [Spu.atOnce, ha]

/-- R81, R82: an observed commit without effect is not armed. -/
theorem State.commitCall_void (forced : Bool)
    (ha : h.call.target = 0 ∨ img.cueCount ≤ h.call.target ∨ h.call.target = s.spu.cue) :
    s.commitCall img h forced true = s.takeEffect img (h.commit forced true) := by
  refine if_pos ?_
  rcases ha with ha | ha | ha <;> simp [Spu.atOnce, ha]

theorem State.commitCall_arms (forced observed : Bool) (hd : h.call.downbeat = true)
    (hf : img.isFree s.spu.cue = false)
    (ho : observed = true →
      h.call.target ≠ 0 ∧ h.call.target < img.cueCount ∧ h.call.target ≠ s.spu.cue) :
    s.commitCall img h forced observed =
      (s.onSpu (fun u => { u with armed := some (h.arm forced observed) })).onCke
        (fun k => { k with armedTarget := some h.call.target }) := by
  refine if_neg ?_
  cases observed with
  | false => simp [Spu.atOnce, hd, hf]
  | true =>
    obtain ⟨h0, h1, h2⟩ := ho rfl
    simp [Spu.atOnce, hd, hf, h0, h1, h2]

end

/-- R117: in RUN the click runs in a cue with a click part. -/
theorem State.clickRuns_run {s : State} {img : Image} (hs : s.spu.showState = .run)
    (hp : s.cke.part = img.clickOf s.spu.cue) (hf : img.isFree s.spu.cue = false) :
    s.clickRuns = true := by
  have hsome : s.cke.part.isSome = true := by
    rw [hp, ← Option.not_isNone]
    exact (congrArg (!·) hf).trans rfl
  simp [State.clickRuns, hs, hsome]

/-- R73, R81: a commit holds no new CALL, and drops none. -/
theorem State.applyCommit_held (img : Image) (c : Commit) (s : State) :
    (s.applyCommit img c).spu.proposal = s.spu.proposal ∧
      (s.applyCommit img c).spu.observed = s.spu.observed := by
  by_cases h : c.target = s.spu.cue
  · rw [State.applyCommit_current h]
    exact ⟨rfl, rfl⟩
  · rw [(State.applyCommit_applies h).spu]
    exact ⟨rfl, rfl⟩

theorem State.commitCall_held (img : Image) (h : HeldCall) (forced observed : Bool) (s : State) :
    (s.commitCall img h forced observed).spu.proposal = s.spu.proposal ∧
      (s.commitCall img h forced observed).spu.observed = s.spu.observed := by
  unfold State.commitCall State.takeEffect State.applyObserved
  split
  · split
    · split
      · exact ⟨rfl, rfl⟩
      · exact s.applyCommit_held img _
    · exact s.applyCommit_held img _
  · exact ⟨rfl, rfl⟩

/-! ## A dropped CALL is told (R80) -/

section
variable {s t : State} {img : Image}

theorem State.conAfter_congr (kind : NoticeKind) (k d1 d2 : Nat) (h1 : t.le.roundCount = s.le.roundCount)
    (h2 : t.spu.cue = s.spu.cue) (h3 : t.con.notices = s.con.notices) :
    (t.conAfter kind k d1 d2).notices = (s.conAfter kind k d1 d2).notices := by
  simp only [State.conAfter, Con.append_notices, h1, h2, h3]

/-- R80, R193: with nothing else posted, the queue after a CALL is dropped. -/
theorem State.callDropped_flush (o : Origin) (k d1 d2 : Nat) (h : s.con.together = []) :
    (s.callDropped img o k d1 d2).flush.con.notices =
      if k = img.station then (s.conAfter .callDropped img.station d1 d2).notices else s.con.notices := by
  unfold State.callDropped
  split
  · rw [State.post_flush _ _ _ _ _ s h]
  · rw [s.flush_empty h]

end

/-! ## The outcomes of a pending CALL (R73, R76, R77) -/

section
variable {s w u : State} {img : Image} {r : Round} {map : StationSet} {c : Contributions} {h : HeldCall}

theorem ComesToVote.cue (hw : ComesToVote img r map c s w) : w.spu.cue = s.spu.cue := by
  rw [hw.spu]
  rfl

theorem ComesToVote.isSource (hw : ComesToVote img r map c s w) :
    w.isSource img = true ↔ img.reference map = some img.station := by
  rw [State.isSource_iff, hw.beatSource]

theorem ComesToVote.decidesCall (hw : ComesToVote img r map c s w) (hp : s.spu.proposal = some (.call h)) :
    w.decideProposal img c = w.decideCall img c h :=
  State.decideProposal_call ((congrArg Spu.proposal hw.spu).trans hp)

theorem ComesToVote.decidesObserved (hw : ComesToVote img r map c s w) (hp : s.spu.proposal = none)
    (ho : s.spu.observed = some h) : w.decideProposal img c = w.decideObserved img c h :=
  State.decideProposal_observed ((congrArg Spu.proposal hw.spu).trans hp)
    ((congrArg Spu.observed hw.spu).trans ho)

/-- SPU once the pending proposal is absent. -/
theorem ComesToVote.cleared (hw : ComesToVote img r map c s w) :
    w.clearProposal.spu = { s.spu.answered with proposal := none } :=
  congrArg (fun v : Spu => { v with proposal := none }) hw.spu

/-- SPU once the observed CALL is no longer held. -/
theorem ComesToVote.unobserved (hw : ComesToVote img r map c s w) :
    w.clearObserved.spu = { s.spu.answered with observed := none } :=
  congrArg (fun v : Spu => { v with observed := none }) hw.spu

/-- R73, R80: a pending CALL that DISSENT drops. -/
theorem ComesToVote.dropped (hw : ComesToVote img r map c s w)
    (hu : EndsVote img (w.clearProposal.callDropped img .spu h.proposer 1 0) u) :
    u.spu.proposal = none ∧ u.spu.cue = s.spu.cue ∧ u.spu.late = s.spu.late ∧
      u.spu.showState = s.spu.showState ∧ u.psq.target = none ∧ SameClick s.cke u.cke ∧
      (h.proposer = img.station → Told u s.spu.cue .callDropped img.station 1 0) := by
  have hdrop := (SameShow.refl w.clearProposal).callDropped (img := img) (o := .spu) (k := h.proposer)
    (d1 := 1) (d2 := 0)
  have hspu := hu.spu
  have hclick := hu.sameClick
  rw [hdrop.spu, hw.cleared] at hspu
  rw [hdrop.cke] at hclick
  obtain ⟨x, n, hspu⟩ := hspu
  rw [hspu, hu.psq, hdrop.psq]
  refine ⟨rfl, rfl, rfl, rfl, rfl, hw.click.trans hclick, fun hown => hu.told ?_⟩
  rw [← hw.cue]
  exact w.clearProposal.callDropped_posted .spu 1 0 hown

/-- R76: a pending CALL that takes effect at its vote field. -/
theorem ComesToVote.commits {forced : Bool} (hw : ComesToVote img r map c s w)
    (ht : h.call.target ≠ s.spu.cue)
    (hu : EndsVote img (w.clearProposal.applyCommit img (h.commit forced false)) u) :
    Committed img (h.commit forced false) { s.spu.answered with proposal := none } u.spu ∧
      Started img h.call.target u.cke ∧
      Told u h.call.target (if forced then .cueLate else .cue) h.proposer 1 0 ∧
      (img.isFree h.call.target = false →
        (img.reference map = some img.station → s.cke.beatTimer = none →
          StartsBeatTimer s.cke.shadow (max s.now (r.edge + 5 * img.charTime)) u.cke) ∧
        (img.reference map ≠ some img.station → u.cke.beatTimer = none)) := by
  have htarget : (h.commit forced false).target ≠ w.clearProposal.spu.cue := by
    rw [hw.cleared]
    exact ht
  have happ := State.applyCommit_applies (img := img) htarget
  have hcommitted := happ.committed.closes hu.spu
  have hstarted : Started img h.call.target _ := happ.started nofun
  obtain ⟨hbeat, hshadow⟩ := happ.timers
  rw [hw.cleared] at hcommitted
  refine ⟨hcommitted, hstarted.sameClick hu.sameClick, hu.told happ.posted, fun hf => ?_⟩
  have hruns := State.clickRuns_run (by rw [happ.spu]; rfl) (by rw [happ.spu]; exact hstarted.part)
    (by rw [happ.spu]; exact hf)
  obtain ⟨hstarts, helsewhere⟩ := hu.timer hruns
  rw [happ.isSource img, hshadow, happ.now] at hstarts
  rw [happ.isSource img] at helsewhere
  refine ⟨fun href ht => ?_, fun href => helsewhere (Bool.eq_false_iff.2 (mt hw.isSource.1 href))⟩
  have hstart := hstarts (hw.isSource.2 href) (hbeat.trans (hw.beatTimer.trans ht))
  exact hw.shadow ▸ hw.now ▸ hstart

/-- R77: a pending CALL that arms the station and CKE. -/
theorem ComesToVote.arms {a : Armed} {target : Nat} (hw : ComesToVote img r map c s w)
    (hu : EndsVote img ((w.clearProposal.onSpu (fun v => { v with armed := some a })).onCke
      (fun k => { k with armedTarget := some target })) u) :
    u.spu.proposal = none ∧ u.spu.cue = s.spu.cue ∧ u.psq.target = none ∧ u.spu.armed = some a ∧
      u.cke.armedTarget = some target ∧ u.cke.bar = s.cke.bar ∧ u.cke.beat = s.cke.beat := by
  obtain ⟨-, -, -, hbar, hbeat, -, -, -, -, -, -, -, -⟩ := hw.click
  obtain ⟨-, -, -, hbar', hbeat', -, -, harmed, -, -, -, -, -⟩ := hu.sameClick
  have hspu : Closes { w.clearProposal.spu with armed := some a } u.spu := hu.spu
  rw [hw.cleared] at hspu
  obtain ⟨x, n, hspu⟩ := hspu
  rw [hspu, hu.psq]
  exact ⟨rfl, rfl, rfl, rfl, harmed, hbar'.trans hbar, hbeat'.trans hbeat⟩

/-! ## The outcomes of an observed CALL (R81, R82) -/

/-- R77, R81: an observed CALL that arms the station and CKE. -/
theorem ComesToVote.armsObserved {a : Armed} {target : Nat} (hw : ComesToVote img r map c s w)
    (hs : w.isSource img = false)
    (hu : EndsVote img ((w.clearObserved.onSpu (fun v => { v with armed := some a })).onCke
      (fun k => { k with armedTarget := some target })) u) :
    u.spu.cue = s.spu.cue ∧ u.spu.suspect = s.spu.suspect ∧ u.spu.armed = some a ∧
      u.cke.armedTarget = some target ∧ u.cke.bar = s.cke.bar ∧ u.cke.beat = s.cke.beat ∧
      u.psq = s.psq := by
  obtain ⟨-, -, -, hbar, hbeat, -, -, -, -, -, -, -, -⟩ := hw.click
  obtain ⟨-, -, -, hbar', hbeat', -, -, harmed, -, -, -, -, -⟩ := hu.sameClick
  have hspu : Closes { w.clearObserved.spu with armed := some a } u.spu := hu.spu
  have hsuspect : u.spu.suspect = w.clearObserved.spu.suspect := hu.suspect hs
  rw [hw.unobserved] at hspu hsuspect
  obtain ⟨x, n, hspu⟩ := hspu
  refine ⟨by rw [hspu]; rfl, hsuspect, by rw [hspu], harmed, hbar'.trans hbar, hbeat'.trans hbeat,
    hu.psq.trans hw.psq⟩

/-- R81, R80: an observed CALL that DISSENT drops. -/
theorem ComesToVote.dropsObserved (hw : ComesToVote img r map c s w) (hs : w.isSource img = false)
    (hu : EndsVote img (w.clearObserved.callDropped img .spu h.proposer 1 0) u) :
    u.spu.observed = none ∧ u.spu.armed = s.spu.armed ∧ u.spu.cue = s.spu.cue ∧
      u.spu.suspect = s.spu.suspect ∧ u.psq = s.psq ∧ SameClick s.cke u.cke ∧
      (s.con.together = [] → s.spu.awaitingCall = false → s.spu.awaitingResume = false →
        c.camfail = s.vsl.pitCamfail →
        u.con.notices =
          if h.proposer = img.station then (s.conAfter .callDropped img.station 1 0).notices
          else s.con.notices) := by
  have hdrop := (SameShow.refl w.clearObserved).callDropped (img := img) (o := .spu) (k := h.proposer)
    (d1 := 1) (d2 := 0)
  have hspu := hu.spu
  have hclick := hu.sameClick
  have hsuspect := hu.suspect ((hdrop.isSource img).trans hs)
  rw [hdrop.spu, hw.unobserved] at hspu hsuspect
  rw [hdrop.cke] at hclick
  obtain ⟨x, n, hspu⟩ := hspu
  refine ⟨by rw [hspu], by rw [hspu]; rfl, by rw [hspu]; rfl, hsuspect, ?_, hw.click.trans hclick,
    fun h1 h2 h3 h4 => ?_⟩
  · rw [hu.psq, hdrop.psq]
    exact hw.psq
  · obtain ⟨htogether, hnotices⟩ := hw.silent h1 h2 h3 h4
    rw [hu.notices, State.callDropped_flush (s := w.clearObserved) .spu h.proposer 1 0 htogether,
      State.conAfter_congr (s := s) (t := w.clearObserved) .callDropped img.station 1 0 hw.roundCount hw.cue
        hnotices]
    exact congrArg (fun x => if h.proposer = img.station then _ else x) hnotices

/-- R82: the commit of an observed CALL for another cue in range. -/
theorem ComesToVote.commitsObserved {forced : Bool} (hw : ComesToVote img r map c s w)
    (hs : w.isSource img = false) (ht : h.call.target ≠ s.spu.cue)
    (hu : EndsVote img
      ((w.clearObserved.applyCommit img (h.commit forced true)).onSpu Spu.clearSuspect) u) :
    Committed img (h.commit forced true) { s.spu.answered with observed := none } u.spu ∧
      u.spu.suspect = false ∧ Started img h.call.target u.cke ∧
      Told u h.call.target (if forced then .cueLate else .cue) h.proposer 1 1 := by
  have htarget : (h.commit forced true).target ≠ w.clearObserved.spu.cue := by
    rw [hw.unobserved]
    exact ht
  have happ := State.applyCommit_applies (img := img) htarget
  have hcommitted := happ.committed.closes (v'' := u.spu) hu.spu
  have hstarted : Started img h.call.target _ := happ.started nofun
  rw [hw.unobserved] at hcommitted
  exact ⟨hcommitted, hu.suspect ((happ.isSource img).trans hs), hstarted.sameClick hu.sameClick,
    hu.told happ.posted⟩

/-- R81, R82: an observed CALL that leaves the show; x: the suspect flag it leaves. -/
theorem ComesToVote.leavesShow {x : Bool} (hw : ComesToVote img r map c s w)
    (hs : w.isSource img = false) {f : Spu → Spu}
    (hf : ∀ v, (f v).cue = v.cue ∧ (f v).armed = v.armed ∧ (f v).lastTransition = v.lastTransition)
    (hx : (f w.clearObserved.spu).suspect = x) (hu : EndsVote img (w.clearObserved.onSpu f) u) :
    u.spu.cue = s.spu.cue ∧ u.spu.suspect = x ∧ u.spu.armed = s.spu.armed ∧
      u.spu.lastTransition = s.spu.lastTransition ∧ u.psq = s.psq ∧ SameClick s.cke u.cke := by
  obtain ⟨hcue, harmed, hlast⟩ := hf w.clearObserved.spu
  have hsuspect := hu.suspect hs
  obtain ⟨y, n, hspu⟩ := hu.spu
  refine ⟨?_, hsuspect.trans hx, ?_, ?_, hu.psq.trans hw.psq, hw.click.trans hu.sameClick⟩
  · rw [hspu]
    exact hcue.trans hw.cue
  · rw [hspu]
    exact harmed.trans ((congrArg Spu.armed hw.unobserved).trans rfl)
  · rw [hspu]
    exact hlast.trans ((congrArg Spu.lastTransition hw.unobserved).trans rfl)

end

/-- Settles O22: the decision by the table of R73 and R81, and what each outcome leaves at the end of the event. -/
theorem pendingCallIsDecided : Obligations.PendingCallIsDecided := by
  refine ⟨fun s img r d0 d1 d2 d3 v0 v1 v2 v3 h hi hj _ hr hst hp ha hc h0 h3 hv => ?_,
    fun s img r d0 d1 d2 d3 v0 v1 v2 v3 h hi hj _ hr hst hp ha hf h0 h1 h2 h3 hv => ?_,
    fun s img r d0 d1 d2 d3 v0 v1 v2 v3 h hi hj _ hr hst hp ho h0 h3 hv href => ?_⟩
  · refine ⟨fun hd => ?_, fun hd hn hpat => ?_, fun hd hn => ?_⟩
    all_goals
      refine completes_uncounted hi hj hr hv hst h0 h3 (fun w u hw hu => ?_)
      rw [hw.decidesCall hp] at hu
    · rw [State.decideCall_dissent hd] at hu
      exact hw.dropped hu
    · rw [State.decideCall_waits hd hn hpat] at hu
      obtain ⟨x, n, hspu⟩ := hu.spu
      rw [State.onSpu_spu, hw.spu] at hspu
      rw [hspu]
      exact ⟨rfl, rfl, hu.psq.trans hw.psq, hw.click.trans hu.sameClick⟩
    · rw [State.decideCall_commits hd hn,
        State.commitCall_immediate _ _ (by rw [hw.cleared]; exact ha),
        State.takeEffect_pending rfl] at hu
      obtain ⟨hcommit, hstart, htold, htimer⟩ := hw.commits hc hu
      exact ⟨hcommit.proposal, hcommit.cue, hcommit.showState, hcommit.lastTransition, hcommit.late,
        hcommit.launchPending, hstart.launch, hstart.bar, hstart.beat, hstart.vamp, hstart.compare,
        hstart.override, htold, htimer⟩
  · refine completes_uncounted hi hj hr hv (.inr hst) h0 h3 (fun w u hw hu => ?_)
    have hn : (Contributions.ofByte d0).notReady = false := h1
    rw [hw.decidesCall hp, State.decideCall_commits h2 (by simp [hn]), hn,
      State.commitCall_arms false false ha (by rw [hw.cleared]; exact hf) nofun] at hu
    exact hw.arms hu
  · have hsource : ∀ {w}, ComesToVote img r (presenceMap d1 d2 d3) (Contributions.ofByte d0) s w →
        w.isSource img = false := fun hw => Bool.eq_false_iff.2 (mt hw.isSource.1 href)
    refine ⟨fun hd => ?_, fun hd hn hpat => ?_, fun hd hn => ?_⟩
    all_goals
      refine completes_uncounted hi hj hr hv hst h0 h3 (fun w u hw hu => ?_)
      rw [hw.decidesObserved hp ho] at hu
    · rw [State.decideObserved_dissent hd] at hu
      exact hw.dropsObserved (hsource hw) hu
    · rw [State.decideObserved_waits hd hn hpat] at hu
      have hs := hsource hw
      have hsuspect := hu.suspect hs
      obtain ⟨x, n, hspu⟩ := hu.spu
      rw [State.onSpu_spu, hw.spu] at hspu hsuspect
      refine ⟨by rw [hspu], by rw [hspu]; rfl, by rw [hspu]; rfl, hsuspect, hu.psq.trans hw.psq,
        hw.click.trans hu.sameClick⟩
    · rw [State.decideObserved_commits hd hn] at hu
      have hs := hsource hw
      obtain ⟨hproposal, hobserved⟩ :=
        w.clearObserved.commitCall_held img h (Contributions.ofByte d0).notReady true
      obtain ⟨hp', ho'⟩ := hu.held
      refine ⟨ho'.trans (hobserved.trans rfl), hp'.trans (hproposal.trans ?_), fun hvoid => ?_,
        fun ht0 ht1 hcur => ?_, fun ht0 ht1 ht => ⟨fun ha => ?_, fun ha hf => ?_⟩⟩
      · exact (congrArg Spu.proposal hw.spu).trans hp
      · rw [State.commitCall_void _ (hvoid.imp_right .inl), State.takeEffect_outOfRange rfl hvoid] at hu
        exact hw.leavesShow hs (f := id) (fun _ => ⟨rfl, rfl, rfl⟩)
          ((congrArg Spu.suspect hw.unobserved).trans rfl) hu
      · have hcur' : h.call.target = w.clearObserved.spu.cue := hcur.trans hw.cue.symm
        rw [State.commitCall_void _ (.inr (.inr hcur')), State.takeEffect_observed rfl ht0 ht1,
          State.applyCommit_current hcur'] at hu
        exact hw.leavesShow hs (f := Spu.clearSuspect) (fun _ => ⟨rfl, rfl, rfl⟩) rfl hu
      · rw [State.commitCall_immediate _ _ (by rw [hw.unobserved]; exact ha),
          State.takeEffect_observed rfl ht0 ht1] at hu
        obtain ⟨hcommit, hsuspect, hstart, htold⟩ := hw.commitsObserved hs ht hu
        exact ⟨hcommit.cue, hsuspect, hcommit.showState, hcommit.lastTransition, hcommit.late,
          hcommit.launchPending, hstart.launch, hstart.bar, hstart.beat, htold⟩
      · rw [State.commitCall_arms _ true ha (by rw [hw.unobserved]; exact hf)
          (fun _ => ⟨ht0, ht1, by rw [hw.unobserved]; exact ht⟩)] at hu
        exact hw.armsObserved hs hu

end Sys2Proof.Machine
end

section
/-! A counted beat (R122 to R124, R128, R133, R134, R138): where it places the click, and what it reports. -/

namespace Sys2Proof.Machine

/-! ## The place of the click (R122) -/

/-- The record k' has the position, the markers and the click part of k; its tempo, lanes and timers may differ. -/
structure SamePlace (k k' : Cke) : Prop where
  bar : k'.bar = k.bar
  beat : k'.beat = k.beat
  vamp : k'.vamp = k.vamp
  launch : k'.launch = k.launch
  armedTarget : k'.armedTarget = k.armedTarget
  countIn : k'.countIn = k.countIn
  compare : k'.compare = k.compare
  part : k'.part = k.part
  override : k'.override = k.override

section
variable {k l m : Cke} {img : Image}

theorem SamePlace.refl (k : Cke) : SamePlace k k := ⟨rfl, rfl, rfl, rfl, rfl, rfl, rfl, rfl, rfl⟩

theorem SamePlace.trans (h : SamePlace k l) (g : SamePlace l m) : SamePlace k m :=
  ⟨g.bar.trans h.bar, g.beat.trans h.beat, g.vamp.trans h.vamp, g.launch.trans h.launch,
    g.armedTarget.trans h.armedTarget, g.countIn.trans h.countIn, g.compare.trans h.compare,
    g.part.trans h.part, g.override.trans h.override⟩

theorem SameClick.place (h : SameClick k l) : SamePlace k l := by
  obtain ⟨-, hoverride, -, hbar, hbeat, hvamp, hlaunch, harmed, hcount, hcompare, hpart, -, -⟩ := h
  exact ⟨hbar, hbeat, hvamp, hlaunch, harmed, hcount, hcompare, hpart, hoverride⟩

theorem SameClick.tempo (h : SameClick k l) : l.tempo = k.tempo := h.1

theorem SamePlace.rampStep (k : Cke) : SamePlace k k.rampStep := by
  unfold Cke.rampStep
  split
  · exact ⟨rfl, rfl, rfl, rfl, rfl, rfl, rfl, rfl, rfl⟩
  · exact SamePlace.refl k

theorem SamePlace.sound (k : Cke) (img : Image) (v : Voice) :
    SamePlace k (k.sound img v) ∧ (k.sound img v).tempo = k.tempo := by
  unfold Cke.sound
  split
  · exact ⟨⟨rfl, rfl, rfl, rfl, rfl, rfl, rfl, rfl, rfl⟩, rfl⟩
  · exact ⟨SamePlace.refl k, rfl⟩

theorem SamePlace.dropSubs (k : Cke) : SamePlace k k.dropSubs :=
  ⟨rfl, rfl, rfl, rfl, rfl, rfl, rfl, rfl, rfl⟩

/-- R125, R126: the clicks of a beat leave its place and the tempo. -/
theorem SamePlace.emit (k : Cke) (img : Image) (asRun : Bool) (now : Nat) :
    SamePlace k (k.emit img asRun now) ∧ (k.emit img asRun now).tempo = k.tempo := by
  have hsound : ∀ v, SamePlace k (k.dropSubs.sound img v) ∧ (k.dropSubs.sound img v).tempo = k.tempo :=
    fun v =>
      have ⟨hplace, htempo⟩ := SamePlace.sound k.dropSubs img v
      ⟨(SamePlace.dropSubs k).trans hplace, htempo⟩
  unfold Cke.emit
  dsimp only
  split
  · split
    · obtain ⟨hplace, htempo⟩ := hsound (if k.dropSubs.accented then .accent else .beat)
      exact ⟨hplace.trans ⟨rfl, rfl, rfl, rfl, rfl, rfl, rfl, rfl, rfl⟩, htempo⟩
    · exact hsound _
  · exact hsound _

theorem SamePlace.matches (h : SamePlace k l) (asRun : Bool) : l.matches asRun = k.matches asRun := by
  simp only [Cke.matches, h.compare, h.bar, h.beat, h.vamp, h.armedTarget]

/-- R122: the placing of a counted beat. -/
def Cke.placed (k : Cke) (img : Image) (run downbeat : Bool) : Placed :=
  if downbeat then k.placeDownbeat img run else k.placeBeat run

/-- R122 step 5: the reports of a placed beat. -/
def Placed.reports (p : Placed) : Reports :=
  { launch := p.launch, armed := p.armed, countIn := p.countIn, matched := p.cke.matches p.asRun }

/-- R132: the record of a placed beat after its ramp step, which a beat that begins a cue does not make. -/
def Placed.stepped (p : Placed) : Cke := if p.asRun && !p.begins then p.cke.rampStep else p.cke

theorem Cke.count_eq (k : Cke) (img : Image) (run downbeat : Bool) (vfs now : Nat) :
    k.count img run downbeat vfs now =
      ((((k.placed img run downbeat).stepped.retime vfs k.dueSampled).emit img
          (k.placed img run downbeat).asRun now),
        { (k.placed img run downbeat).reports with
          matched := Cke.matches (((k.placed img run downbeat).stepped.retime vfs k.dueSampled).emit img
            (k.placed img run downbeat).asRun now) (k.placed img run downbeat).asRun }) := rfl

/-- R122, R132: a counted beat stays where it is placed, and one that begins a cue keeps the tempo placed. -/
theorem Cke.count_placed {p : Placed} {run downbeat : Bool} (h : k.placed img run downbeat = p)
    (vfs now : Nat) :
    SamePlace p.cke (k.count img run downbeat vfs now).1 ∧
      (p.begins = true → (k.count img run downbeat vfs now).1.tempo = p.cke.tempo) ∧
      (k.count img run downbeat vfs now).2 = p.reports := by
  have hstep : SamePlace p.cke p.stepped := by
    unfold Placed.stepped
    split
    · exact SamePlace.rampStep p.cke
    · exact SamePlace.refl p.cke
  have hretime : SamePlace p.cke (p.stepped.retime vfs k.dueSampled) :=
    hstep.trans ⟨rfl, rfl, rfl, rfl, rfl, rfl, rfl, rfl, rfl⟩
  obtain ⟨hemit, htempo⟩ := SamePlace.emit (p.stepped.retime vfs k.dueSampled) img p.asRun now
  rw [Cke.count_eq, h]
  refine ⟨hretime.trans hemit, fun hb => htempo.trans ?_, ?_⟩
  · show p.stepped.tempo = p.cke.tempo
    rw [Placed.stepped, hb, Bool.not_true, Bool.and_false]
    rfl
  · rw [(hretime.trans hemit).matches]
    rfl

/-! ## The vamp at a bar (R134, R138) -/

theorem Cke.entryTest_eq (k : Cke) : ∃ v, k.entryTest = { k with vamp := v } := by
  unfold Cke.entryTest
  split
  · split
    · exact ⟨_, rfl⟩
    · exact ⟨_, rfl⟩
  · exact ⟨_, rfl⟩

theorem Cke.vampRestore_eq (k : Cke) (pass : Option Nat) :
    ∃ v, k.vampRestore pass = { k with vamp := v } := by
  unfold Cke.vampRestore
  split
  · split
    · exact ⟨_, rfl⟩
    · exact ⟨_, rfl⟩
  · exact ⟨_, rfl⟩

/-- R134: the vamp entry test of a click part. -/
theorem Cke.entryTest_enters {part : ClickPart} (hp : k.part = some part) :
    EntersVamp part k.vamp k.bar k.entryTest.vamp := by
  have hv : k.vampPart = part.vamp := by rw [Cke.vampPart, hp]
  unfold Cke.entryTest
  rw [hv]
  cases hvamp : part.vamp with
  | none => exact ⟨fun v h => absurd (hvamp.symm.trans h) nofun, fun _ => rfl⟩
  | some v =>
    refine ⟨fun w hw hn hb => ?_, fun h => ?_⟩
    · cases hvamp.symm.trans hw
      simp only [hn, hb, and_self, if_true]
    · have hno : ¬ (k.vamp = none ∧ k.bar = v.start) := by
        rintro ⟨h1, h2⟩
        rcases h with h | h | h
        · rw [hvamp] at h
          cases h
        · exact h h1
        · exact h v hvamp h2
      simp only [if_neg hno]

theorem Cke.entryTest_free (hp : k.part = none) : k.entryTest = k := by
  simp only [Cke.entryTest, Cke.vampPart, hp]

/-! ## The armed downbeat (R128, R133) -/

/-- The click record as an armed downbeat into a cue leaves it. -/
structure StartsArmed (img : Image) (cue : Nat) (k : Cke) : Prop where
  bar : k.bar = img.startBar cue
  beat : k.beat = 1
  launch : k.launch = false
  armedTarget : k.armedTarget = none
  part : k.part = img.clickOf cue
  compare : img.autoGoOf cue = none → k.compare = none
  free : img.isFree cue = true → k.vamp = none
  click : ∀ p, img.clickOf cue = some p → k.tempo = p.tempo ∧ k.override = none ∧
    EntersVamp p none (img.startBar cue) k.vamp

theorem StartsArmed.place {cue : Nat} (h : StartsArmed img cue k) (g : SamePlace k l)
    (ht : l.tempo = k.tempo) : StartsArmed img cue l := by
  refine ⟨g.bar.trans h.bar, g.beat.trans h.beat, g.launch.trans h.launch,
    g.armedTarget.trans h.armedTarget, g.part.trans h.part, fun x => g.compare.trans (h.compare x),
    fun x => g.vamp.trans (h.free x), fun p hp => ?_⟩
  obtain ⟨htempo, hoverride, henters⟩ := h.click p hp
  exact ⟨ht.trans htempo, g.override.trans hoverride, g.vamp ▸ henters⟩

theorem Cke.armedDownbeat_starts (k : Cke) (img : Image) (cue : Nat) :
    StartsArmed img cue (k.armedDownbeat img cue) := by
  cases hp : img.clickOf cue with
  | none =>
    have h : k.armedDownbeat img cue = { k.freeStart img cue with
        bar := img.startBar cue, beat := 1, launch := false, armedTarget := none } := by
      rw [Cke.armedDownbeat, Cke.cueStart_free k false hp]
      exact Cke.entryTest_free rfl
    rw [h]
    exact ⟨rfl, rfl, rfl, rfl, hp.symm, fun _ => rfl, fun _ => rfl,
      fun p hq => absurd (hp.symm.trans hq) nofun⟩
  | some part =>
    have h : k.armedDownbeat img cue = ({ k.clickStart img cue part with
        bar := img.startBar cue, beat := 1, launch := false, armedTarget := none } : Cke).entryTest := by
      rw [Cke.armedDownbeat, Cke.cueStart_click k false hp]
      rfl
    have henters := Cke.entryTest_enters (part := part) (k := { k.clickStart img cue part with
      bar := img.startBar cue, beat := 1, launch := false, armedTarget := none }) rfl
    rw [← h] at henters
    obtain ⟨v, hv⟩ := Cke.entryTest_eq { k.clickStart img cue part with
      bar := img.startBar cue, beat := 1, launch := false, armedTarget := none }
    rw [hv] at h
    rw [h] at henters ⊢
    refine ⟨rfl, rfl, rfl, rfl, hp.symm, fun ha => ?_, fun hf => ?_, fun p hq => ?_⟩
    · show compareOf img cue = none
      rw [compareOf, ha]
      rfl
    · rw [Image.isFree_of_click hp] at hf
      cases hf
    · cases hp.symm.trans hq
      exact ⟨rfl, rfl, henters⟩

/-- R133: a beat placed as the armed downbeat. -/
def Cke.placedArmed (k : Cke) (img : Image) (target : Nat) : Placed :=
  { Placed.plain (k.armedDownbeat img target) true with begins := true, armed := true }

/-- R138: a beat placed as the restart downbeat. -/
def Cke.placedRestart (k : Cke) : Placed :=
  { Placed.plain k.restartDownbeat true with begins := true, countIn := true }

/-- R124: a beat placed as a downbeat of the count-in c. -/
def Cke.placedCountIn (k : Cke) (c : CountIn) : Placed :=
  Placed.plain { k with countIn := some { c with bar := c.bar + 1 }, beat := 1 } false

/-- R123: a beat placed as a further beat of the bar, of the given meter. -/
def Cke.placedBeat (k : Cke) (meter : Nat) : Placed :=
  Placed.plain { k with beat := if meter < k.beat + 1 then 1 else k.beat + 1 } true

/-- R133: a downbeat in RUN with the vamp inactive or at its last bar takes the armed target. -/
theorem Cke.placed_armed {part : ClickPart} {target : Nat} (ht : k.armedTarget = some target)
    (hp : k.part = some part)
    (hv : k.vamp = none ∨ ∃ v, part.vamp = some v ∧ k.bar = v.start + v.length - 1) :
    k.placed img true true = k.placedArmed img target := by
  have hq : k.qualifies true = true := by
    rcases hv with hv | ⟨v, hv, hb⟩
    · simp [Cke.qualifies, hv]
    · cases hk : k.vamp <;> simp [Cke.qualifies, Cke.atPassEnd, Cke.vampPart, hk, hp, hv, hb, vampLast]
  simp only [Cke.placed, if_true, Cke.placeDownbeat, ht, hq]
  rfl

/-- R124: a downbeat in COUNTIN before the last count-in bar. -/
theorem Cke.placed_countIn {c : CountIn} (hl : k.launch = false) (ha : k.armedTarget = none)
    (hc : k.countIn = some c) (hb : c.bar < c.bars) :
    k.placed img false true = k.placedCountIn c := by
  simp [Cke.placedCountIn, Cke.placed, Cke.placeDownbeat, Cke.placeUnarmed, hl, ha, hc, hb]

/-- R138: the downbeat that ends the count-in. -/
theorem Cke.placed_restart {c : CountIn} (hl : k.launch = false) (ha : k.armedTarget = none)
    (hc : k.countIn = some c) (hb : c.bars ≤ c.bar) :
    k.placed img false true = k.placedRestart := by
  simp [Cke.placedRestart, Cke.placed, Cke.placeDownbeat, Cke.placeUnarmed, hl, ha, hc, Nat.not_lt.2 hb]

/-- R123: a BEAT without DOWNBEAT in RUN. -/
theorem Cke.placed_beat {part : ClickPart} (hl : k.launch = false) (hp : k.part = some part) :
    k.placed img true false = k.placedBeat part.meter := by
  simp [Cke.placedBeat, Cke.placed, Cke.placeBeat, Cke.meter, hl, hp]

/-- R138: the restart downbeat moves to beat 1, ends the count-in, and may restore the vamp. -/
theorem Cke.placedRestart_eq (k : Cke) :
    ∃ v, k.placedRestart.cke = { k with beat := 1, countIn := none, resume := none, vamp := v } :=
  Cke.vampRestore_eq { k with beat := 1, countIn := none, resume := none } (k.resume.getD none)

/-- R136: a point that is met, with no vamp and no armed target. -/
theorem Cke.matches_point {c : ComparePoint} (hc : k.compare = some c) (hbar : c.bar = k.bar)
    (hbeat : c.beat = k.beat) (hv : k.vamp = none) (ha : k.armedTarget = none) :
    k.matches true = some c.cue := by
  simp [Cke.matches, hc, hbar, hbeat, hv, ha]

theorem Cke.matches_none {asRun : Bool} (hc : k.compare = none) : k.matches asRun = none := by
  simp [Cke.matches, hc]

theorem Cke.matches_countIn (k : Cke) : k.matches false = none := by
  unfold Cke.matches
  split <;> rfl

end

end Sys2Proof.Machine
end

section
/-! What a counted beat does at a clean vote field (R78, R84, R122, R179). -/

namespace Sys2Proof.Machine

/-! ## A counted beat at a clean vote field (R29, R122) -/

/-- The station y as a counted beat placed as p leaves it at s, before its reports are taken. -/
structure Counts (p : Placed) (s y : State) : Prop where
  spu : y.spu = s.spu
  place : SamePlace p.cke y.cke
  tempo : p.begins = true → y.cke.tempo = p.cke.tempo

/-- The later state t in which the show of s stands, but for the marks of what awaited a verdict. -/
structure Hears (s t : State) : Prop extends Later s t where
  spu : t.spu = s.spu.answered
  cke : t.cke = s.cke

section
variable {s t u v w y : State} {img : Image} {c : Contributions} {p : Placed}

theorem State.hears (img : Image) (c : Contributions) (s : State) : Hears s (s.heard img c) := by
  obtain ⟨t, ht, he⟩ := s.heard_eq img c
  rw [he]
  exact ⟨ht.toLater.onSpu, congrArg Spu.answered ht.spu, ht.cke⟩

theorem State.countBeat_counts (ht : t.spu = s.spu) (hk : t.cke = s.cke)
    {downbeat : Bool} (hp : s.cke.placed img (s.spu.showState == .run) downbeat = p) (edge : Nat) :
    Counts p s ((t.countBeat img downbeat edge).1.onCke Cke.withdrawSampled) ∧
      (t.countBeat img downbeat edge).2 = p.reports := by
  rw [← ht, ← hk] at hp
  obtain ⟨hplace, htempo, hreports⟩ := Cke.count_placed hp (edge + img.charTime) (edge + 5 * img.charTime)
  have hsame := SameClick.withdrawSampled (t.cke.count img (t.spu.showState == .run) downbeat
    (edge + img.charTime) (edge + 5 * img.charTime)).1
  exact ⟨⟨ht, hplace.trans hsame.place, fun hb => hsame.tempo.trans (htempo hb)⟩, hreports⟩

/-- R117: a beat is counted in RUN, where run = true, and in COUNTIN, where run = false. -/
def State.CountsIn (s : State) (run : Bool) : Prop :=
  s.spu.showState = if run then .run else .countin

theorem State.CountsIn.runs {run : Bool} (h : s.CountsIn run) {part : ClickPart}
    (hp : s.cke.part = some part) : s.clickRuns = true ∧ (s.spu.showState == .run) = run := by
  unfold State.clickRuns
  rw [show s.spu.showState = _ from h, hp]
  cases run <;> exact ⟨rfl, rfl⟩

/-- R29, R122: a property holds after a clean vote field that counts a beat when it holds after the beat's reports,
what is heard, the decision and the match. -/
theorem completes_counted {r : Round} {d0 d1 d2 d3 : Byte} {v0 v1 v2 v3 : Samples} {run downbeat : Bool}
    {part : ClickPart} (hi : s.image = some img) (hj : s.le.state = .joined)
    (hr : CleanRound r s d0 d1 d2 d3 [v0, v1, v2, v3]) (hv : img.roles.videoCritical = false)
    (hpart : s.cke.part = some part) (h0 : d0.getLsbD 0 = false) (h3 : d0.getLsbD 3 = true)
    (hst : s.CountsIn run) (h4 : d0.getLsbD 4 = downbeat) (hp : s.cke.placed img run downbeat = p)
    {P : State → Prop}
    (h : ∀ y w u, Counts p s y → Hears (y.takeReports img p.reports) w →
      EndsVote img ((w.decideVote img (Contributions.ofByte d0)).takeMatch img p.reports) u → P u) :
    Completes (.voteFieldComplete v0 v1 v2 v3) s P := by
  obtain ⟨hruns, hrun⟩ := hst.runs hpart
  rw [← hrun, ← h4] at hp
  obtain ⟨hcounts, hreports⟩ := State.countBeat_counts (s := s) (t := s.voted img r [v0, v1, v2, v3])
    rfl rfl hp r.edge
  have hcount : (s.voted img r [v0, v1, v2, v3]).countResult img (Contributions.ofByte d0) r.edge =
      (s.voted img r [v0, v1, v2, v3]).countBeat img (d0.getLsbD 4) r.edge := by
    have hruns' : (s.voted img r [v0, v1, v2, v3]).clickRuns = true := hruns
    have hstop : (Contributions.ofByte d0).stop = false := h0
    have hbeat : (Contributions.ofByte d0).beat = true := h3
    simp only [State.countResult, hruns', hstop, hbeat, Bool.not_false, Bool.and_self, if_true]
    rfl
  refine completes_cleanVote hi hj hr hv (fun u hu => ?_)
  rw [State.decided, hcount, hreports] at hu
  exact h _ _ u hcounts (State.hears img _ _) hu

/-- SPU outside STOPPED with no proposal and no observed CALL held. -/
structure Idle (v : Spu) : Prop where
  awake : v.showState ≠ .stopped
  proposal : v.proposal = none
  observed : v.observed = none

/-- R73: a vote field with nothing held decides nothing. -/
theorem State.decideVote_idle (hc : c.stop = false) (hs : Idle s.spu) : s.decideVote img c = s := by
  rw [State.decideVote_proposal hc hs.awake, State.decideProposal, hs.proposal, hs.observed]

theorem State.takeMatch_none {r : Reports} (h : r.matched = none) : s.takeMatch img r = s := by
  rw [State.takeMatch, h]

theorem State.takeMatch_some {r : Reports} {cue : Nat} (h : r.matched = some cue) :
    s.takeMatch img r = s.autoGo img cue := by
  rw [State.takeMatch, h]

theorem Hears.decides_idle (hw : Hears t w) (hc : c.stop = false) (ht : Idle t.spu) :
    w.decideVote img c = w :=
  State.decideVote_idle hc (hw.spu ▸ ⟨ht.awake, ht.proposal, ht.observed⟩)

/-- The end of a vote field that decides nothing, after a beat whose reports leave the click where it was placed. -/
theorem Counts.stays (hy : Counts p s y) (hw : Hears t w) (ht : t.cke = y.cke) (hu : EndsVote img w u) :
    Closes t.spu.answered u.spu ∧ SamePlace p.cke u.cke := by
  have hclick := hu.sameClick
  rw [hw.cke, ht] at hclick
  exact ⟨hw.spu ▸ hu.spu, hy.place.trans hclick.place⟩

theorem Applies.sameShow {m : Commit} (h : Applies img m s t) (g : SameShow t u) : Applies img m s u := by
  refine ⟨⟨g.le.trans h.le, g.now.trans h.now, fun n x => g.postings n (h.postings n x)⟩,
    g.spu.trans h.spu, ?_, g.cke.trans h.cke, g.toLater.posted h.posted⟩
  rw [g.psq]
  exact h.target

/-- R85: CKE is not told of a commit at a downbeat. -/
theorem Applies.click_stands {m : Commit} (h : Applies img m s t) (hh : m.how = .downbeat) :
    t.cke = s.cke := h.cke.trans (if_pos hh)

theorem Committed.answered {m : Commit} {x x' : Spu} (h : Committed img m x x') :
    Committed img m x x'.answered :=
  ⟨h.cue, h.showState, h.lastTransition, h.late, h.launchPending, h.proposal, h.observed, h.armed⟩

/-! ## The armed downbeat (R78) -/

/-- R78: the commit of an armed GO at its downbeat. -/
def Armed.commit (a : Armed) : Commit :=
  { target := a.call.target, proposer := a.proposer, how := .downbeat, forced := a.forced,
    observed := a.observed }

/-- R78: the armed GO is no longer held. -/
def State.disarm (s : State) : State := s.onSpu (fun v => { v with armed := none })

theorem State.armedDownbeat_applies {a : Armed} (ha : s.spu.armed = some a) (ho : a.observed = false)
    (ht : a.call.target ≠ s.spu.cue) : Applies img a.commit s.disarm (s.armedDownbeat img) := by
  have h : s.armedDownbeat img = s.disarm.takeEffect img a.commit := by
    rw [State.armedDownbeat, ha]
    rfl
  rw [h, State.takeEffect_pending ho]
  exact State.applyCommit_applies ht

/-! ## The auto-GO (R84) -/

/-- R84: the commit of the cue after the current one. -/
def autoCommit (img : Image) (cue : Nat) : Commit :=
  { target := cue + 1, proposer := img.station, how := .autoGo, forced := false, observed := false }

/-- R84: no CALL is held. -/
def State.unheld (s : State) : State := s.clearProposal.clearObserved

theorem State.unheld_spu (s : State) :
    s.unheld.spu = { s.spu with proposal := none, observed := none } := rfl

theorem State.takesMatch_iff {cue : Nat} : s.spu.takesMatch img cue = true ↔
    s.spu.showState = .run ∧ cue = s.spu.cue ∧ s.spu.cue + 1 < img.cueCount ∧ s.spu.armed = none := by
  simp [Spu.takesMatch, and_assoc]

/-- R84: a compare match commits the next cue, and the proposer of a CALL held is told that it drops. -/
theorem State.autoGo_applies {cue : Nat} (h : s.spu.takesMatch img cue = true) :
    Applies img (autoCommit img s.spu.cue) s.unheld (s.autoGo img cue) ∧
      ∀ x, s.spu.proposal = some (.call x) → x.proposer = img.station →
        Posted (s.autoGo img cue) (s.spu.cue + 1) .callDropped img.station 1 0 := by
  have happ : Applies img (autoCommit img s.spu.cue) s.unheld
      (s.unheld.applyCommit img (autoCommit img s.spu.cue)) :=
    State.applyCommit_applies (Nat.succ_ne_self _)
  have hcue := happ.committed.cue
  rw [State.autoGo, if_pos h]
  cases hp : s.spu.proposal with
  | none => exact ⟨happ, nofun⟩
  | some q =>
    cases q with
    | resume x => exact ⟨happ, nofun⟩
    | call x =>
      refine ⟨happ.sameShow (SameShow.refl _).callDropped, fun x' hx hown => ?_⟩
      cases hx
      have hposted := State.callDropped_posted .spuDrop 1 0
        (s.unheld.applyCommit img (autoCommit img s.spu.cue)) hown
      rw [hcue] at hposted
      exact hposted

theorem State.autoGo_ignored {cue : Nat} (h : img.cueCount ≤ s.spu.cue + 1) :
    s.autoGo img cue = s := by
  refine if_neg (fun hm => ?_)
  obtain ⟨-, -, hlast, -⟩ := State.takesMatch_iff.1 hm
  omega

/-- R73: with no observed CALL, a pending CALL that waits stays, one vote field the less patient; and nothing held
stays so. -/
theorem State.decideVote_waits (hc : c.stop = false) (hs : s.spu.showState ≠ .stopped)
    (ho : s.spu.observed = none)
    (hp : s.spu.proposal = none ∨ ∃ h, s.spu.proposal = some (.call h) ∧ c.dissent = false ∧
      c.notReady = true ∧ 0 < h.patience) :
    ∃ q, s.decideVote img c = s.onSpu (fun v => { v with proposal := q }) ∧
      ∀ h, s.spu.proposal = some (.call h) → ∃ h', q = some (.call h') ∧ h'.proposer = h.proposer := by
  rcases hp with hp | ⟨h, hp, hd, hn, hpat⟩
  · refine ⟨s.spu.proposal, State.decideVote_idle hc ⟨hs, hp, ho⟩, fun h hh => ⟨h, hh, rfl⟩⟩
  · refine ⟨some (.call { h with patience := h.patience - 1 }), ?_, fun h' hh => ?_⟩
    · rw [State.decideVote_proposal hc hs, State.decideProposal_call hp, State.decideCall_waits hd hn hpat]
    · cases hp.symm.trans hh
      exact ⟨_, rfl, rfl⟩

end

/-! ## The four outcomes (R78, R84, R124, R179) -/

section
variable {s u w y : State} {img : Image} {c : Contributions}

/-- R78, R133: an armed downbeat that qualifies. -/
theorem Counts.arms {a : Armed} (hy : Counts (s.cke.placedArmed img a.call.target) s y)
    (hc : c.stop = false) (hp : s.spu.proposal = none) (hob : s.spu.observed = none)
    (ha : s.spu.armed = some a) (ho : a.observed = false) (ht : a.call.target ≠ s.spu.cue)
    (hauto : img.autoGoOf a.call.target = none) (hw : Hears (y.armedDownbeat img) w)
    (hu : EndsVote img
      ((w.decideVote img c).takeMatch img (s.cke.placedArmed img a.call.target).reports) u) :
    Committed img a.commit { s.spu with armed := none } u.spu ∧
      StartsArmed img a.call.target u.cke ∧
      Told u a.call.target (if a.forced then .cueLate else .cue) a.proposer 2 0 := by
  have hstarts := Cke.armedDownbeat_starts s.cke img a.call.target
  have happ := State.armedDownbeat_applies (img := img) (s := y) (hy.spu ▸ ha) ho (hy.spu ▸ ht)
  have hcommitted := happ.committed
  have hposted := happ.posted
  rw [State.disarm, State.onSpu_spu, hy.spu] at hcommitted
  rw [State.takeMatch_none (Cke.matches_none (hstarts.compare hauto)), hw.decides_idle hc
    ⟨by rw [hcommitted.showState]; nofun, hcommitted.proposal.trans hp, hcommitted.observed.trans hob⟩] at hu
  obtain ⟨hcloses, -⟩ := hy.stays hw (happ.click_stands rfl) hu
  have hclick := hu.sameClick
  rw [hw.cke, happ.click_stands rfl] at hclick
  rw [show a.commit.observed = false from ho] at hposted
  exact ⟨hcommitted.answered.closes hcloses,
    (hstarts.place hy.place (hy.tempo rfl)).place hclick.place hclick.tempo,
    hu.told (hw.toLater.posted hposted)⟩

/-- R179: the count-in completion. -/
theorem State.countInComplete_frame (hs : s.spu.showState = .countin) :
    (s.countInComplete img).spu = { s.spu with showState := .run, restart := none } ∧
      (s.countInComplete img).cke = s.cke := by
  rw [State.countInComplete, if_pos hs]
  exact ⟨rfl, rfl⟩

/-- R138, R179: the downbeat that ends the count-in. -/
theorem Counts.endsCountIn (hy : Counts s.cke.placedRestart s y) (hc : c.stop = false)
    (hp : s.spu.proposal = none) (ho : s.spu.observed = none) (hs : s.spu.showState = .countin)
    (hcompare : s.cke.compare = none) (hw : Hears (y.countInComplete img) w)
    (hu : EndsVote img ((w.decideVote img c).takeMatch img s.cke.placedRestart.reports) u) :
    u.spu.showState = .run ∧ u.spu.restart = none ∧ u.spu.cue = s.spu.cue ∧
      u.cke.countIn = none ∧ u.cke.bar = s.cke.bar ∧ u.cke.beat = 1 := by
  obtain ⟨vamp, hk⟩ := s.cke.placedRestart_eq
  obtain ⟨hspu, hcke⟩ := State.countInComplete_frame (img := img) (s := y) (hy.spu ▸ hs)
  rw [hy.spu] at hspu
  rw [State.takeMatch_none (Cke.matches_none (by rw [hk]; exact hcompare)),
    hw.decides_idle hc (hspu ▸ ⟨nofun, hp, ho⟩)] at hu
  obtain ⟨hcloses, hplace⟩ := hy.stays hw hcke hu
  rw [hk] at hplace
  rw [hspu] at hcloses
  obtain ⟨x, n, hcloses⟩ := hcloses
  rw [hcloses]
  exact ⟨rfl, rfl, rfl, hplace.countIn, hplace.bar, hplace.beat⟩

/-- R124: a downbeat within the count-in. -/
theorem Counts.countsIn {x : CountIn} (hy : Counts (s.cke.placedCountIn x) s y) (hc : c.stop = false)
    (hs : Idle s.spu) (hw : Hears y w)
    (hu : EndsVote img ((w.decideVote img c).takeMatch img (s.cke.placedCountIn x).reports) u) :
    u.spu.showState = s.spu.showState ∧ u.spu.restart = s.spu.restart ∧
      u.cke.countIn = some { x with bar := x.bar + 1 } ∧ u.cke.bar = s.cke.bar ∧ u.cke.beat = 1 := by
  rw [State.takeMatch_none (Cke.matches_countIn _), hw.decides_idle hc (hy.spu ▸ hs)] at hu
  obtain ⟨hcloses, hplace⟩ := hy.stays hw rfl hu
  rw [hy.spu] at hcloses
  obtain ⟨y, n, hcloses⟩ := hcloses
  rw [hcloses]
  exact ⟨rfl, rfl, hplace.countIn, hplace.bar, hplace.beat⟩

/-- R84: a compare match before the last cue commits the next one, with nothing held or a CALL that waits. -/
theorem Counts.autoGoes {p : Placed} {cue : Nat} (hy : Counts p s y) (hc : c.stop = false)
    (hm : s.spu.takesMatch img cue = true) (hp : p.reports.matched = some cue) (ho : s.spu.observed = none)
    (hq : s.spu.proposal = none ∨ ∃ h, s.spu.proposal = some (.call h) ∧ c.dissent = false ∧
      c.notReady = true ∧ 0 < h.patience)
    (hw : Hears y w) (hu : EndsVote img ((w.decideVote img c).takeMatch img p.reports) u) :
    Committed img (autoCommit img s.spu.cue)
        { s.spu.answered with proposal := none, observed := none } u.spu ∧
      Started img (s.spu.cue + 1) u.cke ∧ u.psq.target = none ∧
      Told u (s.spu.cue + 1) .cue img.station 3 0 ∧
      (∀ h, s.spu.proposal = some (.call h) → h.proposer = img.station →
        Told u (s.spu.cue + 1) .callDropped img.station 1 0) := by
  have hspu : w.spu = s.spu.answered := hw.spu.trans (congrArg Spu.answered hy.spu)
  have hrun : w.spu.showState = .run := hspu ▸ (State.takesMatch_iff.1 hm).1
  obtain ⟨q, hdecide, hcall⟩ := State.decideVote_waits (img := img) (s := w) hc
    (hrun ▸ nofun) (hspu ▸ ho) (hspu ▸ hq)
  have hdecided : (w.decideVote img c).spu = { s.spu.answered with proposal := q } := by
    rw [hdecide, State.onSpu_spu, hspu]
  have hm' : (w.decideVote img c).spu.takesMatch img cue = true := hdecided ▸ hm
  obtain ⟨happ, hdropped⟩ := State.autoGo_applies hm'
  rw [State.takeMatch_some hp] at hu
  have hcommitted := happ.committed.closes hu.spu
  have hstarted := (happ.started nofun).sameClick hu.sameClick
  have htold := hu.told happ.posted
  rw [State.unheld_spu, hdecided] at hcommitted
  rw [hdecided] at hdropped hstarted htold
  refine ⟨hcommitted, hstarted, ?_, htold, fun h hh hown => ?_⟩
  · rw [hu.psq, happ.target]
    rfl
  · obtain ⟨h', hq', hsame⟩ := hcall h (hspu ▸ hh)
    exact hu.told (hdropped h' hq' (hsame.trans hown))

/-- R84: a compare match at the last cue is ignored. -/
theorem Counts.ignoresMatch {p : Placed} {cue : Nat} (hy : Counts p s y) (hc : c.stop = false)
    (hs : Idle s.spu) (hp : p.reports.matched = some cue) (hlast : img.cueCount ≤ s.spu.cue + 1)
    (hw : Hears y w) (hu : EndsVote img ((w.decideVote img c).takeMatch img p.reports) u) :
    u.spu.cue = s.spu.cue ∧ u.spu.lastTransition = s.spu.lastTransition ∧ SamePlace p.cke u.cke := by
  have hspu : w.spu = s.spu.answered := hw.spu.trans (congrArg Spu.answered hy.spu)
  rw [hw.decides_idle hc (hy.spu ▸ hs), State.takeMatch_some hp,
    State.autoGo_ignored (by rw [hspu]; exact hlast)] at hu
  obtain ⟨hcloses, hplace⟩ := hy.stays hw rfl hu
  rw [hy.spu] at hcloses
  obtain ⟨x, n, hcloses⟩ := hcloses
  rw [hcloses]
  exact ⟨rfl, rfl, hplace⟩

end

/-- Settles O27: each placing of the beat, its reports, and what they leave at the end of the event. -/
theorem countedBeatReports : Obligations.CountedBeatReports := by
  intro s img r d0 d1 d2 d3 v0 v1 v2 v3 part hi hj _ hr hpart h0 h3 hobs hv
  refine ⟨fun a hst hprop harmed ho hat ht hauto h4 hvamp => ?_,
    fun c hst hprop hlaunch hat hcount hbars hcompare h4 => ?_,
    fun c hst hprop hlaunch hat hcount hbars h4 => ?_,
    fun c hst harmed hlaunch hat hvamp h4 hc hcue hbar hbeat hprop => ?_⟩
  · refine completes_counted hi hj hr hv hpart h0 h3 (run := true) hst h4
      (Cke.placed_armed hat hpart hvamp) (fun y w u hy hw hu => ?_)
    obtain ⟨hcommitted, hstarts, htold⟩ := hy.arms h0 hprop hobs harmed ho ht hauto hw hu
    exact ⟨hcommitted.cue, hcommitted.armed, hcommitted.showState, hcommitted.lastTransition,
      hcommitted.late, hcommitted.launchPending, hstarts.armedTarget, hstarts.launch, hstarts.bar,
      hstarts.beat, hstarts.part, htold, hstarts.free, hstarts.click⟩
  · exact completes_counted hi hj hr hv hpart h0 h3 (run := false) hst h4
      (Cke.placed_restart hlaunch hat hcount hbars)
      (fun _ _ _ hy hw hu => hy.endsCountIn h0 hprop hobs hst hcompare hw hu)
  · refine completes_counted hi hj hr hv hpart h0 h3 (run := false) hst h4
      (Cke.placed_countIn hlaunch hat hcount hbars) (fun y w u hy hw hu => ?_)
    obtain ⟨hshow, hrest⟩ := hy.countsIn h0 ⟨hst ▸ nofun, hprop, hobs⟩ hw hu
    exact ⟨hshow.trans hst, hrest⟩
  · have hmatch : (s.cke.placedBeat part.meter).reports.matched = some c.cue :=
      Cke.matches_point hc hbar hbeat hvamp hat
    have hplaced := Cke.placed_beat (img := img) hlaunch hpart
    refine ⟨fun hlast => ?_, fun hlast hnone => ?_⟩
    · refine completes_counted hi hj hr hv hpart h0 h3 (run := true) hst h4 hplaced
        (fun y w u hy hw hu => ?_)
      obtain ⟨hcommitted, hstarted, htarget, htold, hdropped⟩ :=
        hy.autoGoes h0 (State.takesMatch_iff.2 ⟨hst, hcue, hlast, harmed⟩) hmatch hobs hprop hw hu
      exact ⟨hcommitted.cue, hcommitted.showState, hcommitted.proposal, hcommitted.lastTransition,
        hcommitted.late, hcommitted.launchPending, hstarted.launch, htarget, htold, hdropped,
        hstarted.bar, hstarted.beat⟩
    · refine completes_counted hi hj hr hv hpart h0 h3 (run := true) hst h4 hplaced
        (fun y w u hy hw hu => ?_)
      obtain ⟨hcue', htransition, hplace⟩ :=
        hy.ignoresMatch h0 ⟨hst ▸ nofun, hnone, hobs⟩ hmatch hlast hw hu
      exact ⟨hcue', htransition, hplace.bar, hplace.beat.trans hbeat.symm⟩

end Sys2Proof.Machine
end

section
/-! The sync monitors, the selector and the caption composer (R143, R144, R147 to R155). -/

namespace Sys2Proof.Machine

/-! ## Monitors (R143, R144) -/

section
variable {m : Monitor} {w now e g : Nat}

theorem Monitor.pulse_unlocked (h : m.lock = .unlocked) : m.pulse w now =
    { lock := .locking 0, misses := 0, expired := false, window := some (now + w) } := by
  rw [Monitor.pulse, h]

theorem Monitor.pulse_locking (h : m.lock = .locking g) : m.pulse w now =
    { lock := if m.expired then .locking 0 else if 8 ≤ g + 1 then .locked else .locking (g + 1)
      misses := 0, expired := false, window := some (now + w) } := by
  rw [Monitor.pulse, h]

theorem Monitor.pulse_locked (h : m.lock = .locked) : m.pulse w now =
    { lock := .locked, misses := 0, expired := false, window := some (now + w) } := by
  rw [Monitor.pulse, h]

/-- R144: a first or second miss. In LOCKING it marks the window as expired. -/
theorem Monitor.miss_counted (h : m.lock = .locked ∨ ∃ g, m.lock = .locking g) (hm : m.misses < 2) :
    m.miss w e =
      { m with
        misses := m.misses + 1
        expired := if m.lock = .locked then m.expired else true
        window := some (e + w) } := by
  have hfew : ¬ 3 ≤ m.misses + 1 := by omega
  rcases h with h | ⟨g, h⟩ <;> simp [Monitor.miss, h, hfew]

/-- R144: the third miss unlocks the input. -/
theorem Monitor.miss_third (h : m.lock = .locked ∨ ∃ g, m.lock = .locking g) (hm : 2 ≤ m.misses) :
    m.miss w e = Monitor.cold := by
  have hthird : 3 ≤ m.misses + 1 := by omega
  rcases h with h | ⟨g, h⟩ <;> simp [Monitor.miss, h, hthird]

end

section
variable {s : State} {img : Image} {i : Source} {e t : Nat} {ready : Bool}

/-! ## A frame sync (R143, R149, R153) -/

/-- R143: VSL after the pulse of an input at an instant. -/
def Vsl.pulsed (v : Vsl) (img : Image) (i : Source) (now : Nat) : Vsl :=
  v.setMonitor i ((v.monitors.get i).pulse img.frameWindow now)

/-- R153: VSL after a frame boundary of an input: an idle composer begins a record of the live source. -/
def Vsl.captioned (v : Vsl) (i : Source) (ready : Bool) (record : List Byte) (ends : Nat) : Vsl :=
  { v with
    composer := if v.live = some i ∧ v.composer = .idle ∧ ready = true then .sending record ends
      else v.composer }

theorem Vsl.captioned_begins {v : Vsl} {record : List Byte}
    (h : v.live = some i ∧ v.composer = .idle ∧ ready = true) :
    v.captioned i ready record e = { v with composer := .sending record e } := by
  rw [Vsl.captioned, if_pos h]

theorem Vsl.captioned_skips {v : Vsl} {record : List Byte}
    (h : ¬ (v.live = some i ∧ v.composer = .idle ∧ ready = true)) :
    v.captioned i ready record e = v := by
  rw [Vsl.captioned, if_neg h]

theorem State.captionFrame_begins (hc : s.vsl.composer = .idle) : s.captionFrame img true =
    s.onVsl (fun v => { v with composer := .sending (s.caption img) (s.now + Config.captionNs) }) := by
  rw [State.captionFrame, hc]
  rfl

theorem State.captionFrame_skips (h : ¬ (s.vsl.composer = .idle ∧ ready = true)) :
    s.captionFrame img ready = s := by
  unfold State.captionFrame
  split
  next hc => exact if_neg (fun hr => h ⟨hc, hr⟩)
  next => rfl

/-- R153: the station after a frame boundary of an input, as the composer takes it. -/
def State.captioned (img : Image) (i : Source) (ready : Bool) (s : State) : State :=
  s.onVsl (fun v => v.captioned i ready (s.caption img) (s.now + Config.captionNs))

theorem State.captionFrame_of_live (s : State) (img : Image) (i : Source) (ready : Bool) :
    (if s.vsl.live = some i then s.captionFrame img ready else s) = s.captioned img i ready := by
  show _ = { s with vsl := s.vsl.captioned i ready (s.caption img) (s.now + Config.captionNs) }
  by_cases h : s.vsl.live = some i ∧ s.vsl.composer = .idle ∧ ready = true
  · rw [Vsl.captioned_begins h]
    obtain ⟨hlive, hidle, rfl⟩ := h
    rw [if_pos hlive, State.captionFrame_begins hidle]
    rfl
  · rw [Vsl.captioned_skips h]
    split
    next hlive => exact State.captionFrame_skips (fun hc => h ⟨hlive, hc⟩)
    next => rfl

theorem State.syncFrame_outOfService (h : img.inService = false) : s.syncFrame img i ready = s := by
  rw [State.syncFrame, if_neg (Bool.eq_false_iff.1 h)]

/-- R143: a frame sync of an input that is not LOCKED is no frame boundary. -/
theorem State.syncFrame_counts (h : img.inService = true) (hl : (s.vsl.monitors.get i).lock ≠ .locked) :
    s.syncFrame img i ready = s.onVsl (fun v => (v.pulsed img i s.now).rechoose img) := by
  rw [State.syncFrame, if_pos h]
  exact if_neg hl

/-- R143: a frame sync of a LOCKED input is a frame boundary for the selector, then for the composer. -/
theorem State.syncFrame_boundary (h : img.inService = true)
    (hl : (s.vsl.monitors.get i).lock = .locked) :
    s.syncFrame img i ready =
      ((s.onVsl (fun v => v.pulsed img i s.now)).switchFrame img i).captioned img i ready := by
  rw [State.syncFrame, if_pos h]
  exact (if_pos hl).trans (State.captionFrame_of_live _ img i ready)

/-- R149: the pulse leaves the pending switch, which takes place. -/
theorem State.switchFrame_switches (h : s.vsl.pendingSwitch = some i) :
    (s.onVsl (fun v => v.pulsed img i t)).switchFrame img i =
      (s.onVsl (fun v => (v.pulsed img i t).switchTo img i)).post .vsl .camera img.station 1
        (sourceCode i) := if_pos h

theorem State.switchFrame_stays (h : s.vsl.pendingSwitch ≠ some i) :
    (s.onVsl (fun v => v.pulsed img i t)).switchFrame img i = s.onVsl (fun v => v.pulsed img i t) :=
  if_neg h

/-- R193: the caption posts nothing. -/
theorem State.captioned_flush : (s.captioned img i ready).flush = s.flush.captioned img i ready := rfl

/-- R193: an event that VSL alone takes, and that posts nothing. -/
theorem State.onVsl_flush {f : Vsl → Vsl} (ht : s.con.together = []) :
    ((s.reach t).onVsl f).flush = (s.reach t).onVsl f := State.flush_empty _ ht

theorem exec_frameSync (hi : s.image = some img) :
    exec (.frameSync i t ready) s = .next ((s.reach t).syncFrame img i ready).flush :=
  withImage_some (fun img => ((s.reach t).syncFrame img i ready).flush) hi

/-- R149: at its frame boundary the source of the pending switch becomes live. -/
theorem exec_frameSync_switches (hi : s.image = some img) (ht : s.con.together = [])
    (h : img.inService = true) (hl : (s.vsl.monitors.get i).lock = .locked)
    (hp : s.vsl.pendingSwitch = some i) :
    exec (.frameSync i t ready) s = .next { s with
      now := max s.now t
      vsl := ((s.vsl.pulsed img i (max s.now t)).switchTo img i).captioned i ready (s.caption img)
        (max s.now t + Config.captionNs)
      con := s.conAfter .camera img.station 1 (sourceCode i) } := by
  rw [exec_frameSync hi, State.syncFrame_boundary (s := s.reach t) h hl,
    State.switchFrame_switches (s := s.reach t) hp, State.captioned_flush, State.post_flush]
  · rfl
  · exact ht

/-- R149: another frame boundary changes nothing at the selector. -/
theorem exec_frameSync_keeps_live (hi : s.image = some img) (ht : s.con.together = [])
    (h : img.inService = true) (hl : (s.vsl.monitors.get i).lock = .locked)
    (hp : s.vsl.pendingSwitch ≠ some i) :
    exec (.frameSync i t ready) s = .next { s with
      now := max s.now t
      vsl := (s.vsl.pulsed img i (max s.now t)).captioned i ready (s.caption img)
        (max s.now t + Config.captionNs) } := by
  rw [exec_frameSync hi, State.syncFrame_boundary (s := s.reach t) h hl,
    State.switchFrame_stays (s := s.reach t) hp, State.captioned_flush, State.onVsl_flush ht]
  rfl

theorem exec_frameSync_counts (hi : s.image = some img) (ht : s.con.together = [])
    (h : img.inService = true) (hl : (s.vsl.monitors.get i).lock ≠ .locked) :
    exec (.frameSync i t ready) s = .next { s with
      now := max s.now t, vsl := (s.vsl.pulsed img i (max s.now t)).rechoose img } := by
  rw [exec_frameSync hi, State.syncFrame_counts (s := s.reach t) h hl, State.onVsl_flush ht]
  rfl

/-- R148, R150: after a switch VSL has re-chosen. -/
theorem Vsl.switchTo_chosen (v : Vsl) (img : Image) (i : Source) : Rechosen img (v.switchTo img i) :=
  Vsl.rechoose_chosen _ img

/-- R147, R148: after a loss VSL has re-chosen. -/
theorem Vsl.loseLive_chosen (v : Vsl) (img : Image) (e : Nat) : Rechosen img (v.loseLive img e) :=
  Vsl.rechoose_chosen _ img

/-- R150: after a switch in service CAMFAIL says whether the live source is the desired one. -/
theorem Vsl.switchTo_camfail (v : Vsl) (h : img.inService = true) :
    (v.switchTo img i).camfail = ((v.switchTo img i).live != (v.switchTo img i).desired) := by
  have htold := Vsl.told_switchTo v img i
  rwa [Vsl.told, h, Bool.true_and] at htold

end

/-- Settles O45, by the service and the state of the input's monitor. -/
theorem frameSyncIsCounted : Obligations.FrameSyncIsCounted := by
  intro s img i t ready hi ht
  refine ⟨fun hv => ?_, fun hv hl => ?_, fun hv hl => ?_⟩
  · refine ⟨_, exec_frameSync hi, ?_⟩
    rw [State.syncFrame_outOfService hv, State.flush_empty (s.reach t) ht]
    exact ⟨rfl, rfl, rfl, rfl, rfl, rfl, rfl, rfl, rfl⟩
  · refine ⟨_, exec_frameSync_counts hi ht hv hl, ?_, rfl, rfl, rfl, rfl, rfl, rfl,
      fun _ _ _ _ => Vsl.rechoose_chosen _ img, rfl, rfl, rfl, rfl, rfl, rfl, rfl⟩
    refine congrArg (s.vsl.monitors.set i) ?_
    cases hlock : (s.vsl.monitors.get i).lock with
    | unlocked => exact Monitor.pulse_unlocked hlock
    | locking g => exact Monitor.pulse_locking hlock
    | locked => exact absurd hlock hl
  · have hpulse : ((s.vsl.pulsed img i (max s.now t)).monitors.get i) =
        { lock := .locked, misses := 0, expired := false,
          window := some (max s.now t + img.frameWindow) } :=
      (Inputs.get_set_same _ i _).trans (Monitor.pulse_locked hl)
    by_cases hp : s.vsl.pendingSwitch = some i
    · exact ⟨_, exec_frameSync_switches hi ht hv hl hp, congrArg Monitor.lock hpulse,
        congrArg Monitor.window hpulse,
        fun _ => ⟨rfl, rfl, Vsl.switchTo_chosen _ img i, Vsl.switchTo_camfail _ hv, rfl⟩,
        fun hn => absurd hp hn, rfl, rfl, rfl, rfl, rfl, rfl, rfl, rfl, rfl, rfl⟩
    · exact ⟨_, exec_frameSync_keeps_live hi ht hv hl hp, congrArg Monitor.lock hpulse,
        congrArg Monitor.window hpulse, fun hs => absurd hs hp,
        fun _ => ⟨rfl, rfl, rfl, rfl, rfl⟩, rfl, rfl, rfl, rfl, rfl, rfl, rfl, rfl, rfl, rfl⟩

section
variable {s before : State} {img : Image} {i : Source} {e : Nat} {reason : StopReason} {detail : Byte}

/-! ## A frame window expiry (R144, R147) -/

/-- R144: a miss that leaves the input in LOCKING or LOCKED changes its monitor alone. -/
theorem State.windowExpiry_counts
    (h : ((s.vsl.monitors.get i).miss img.frameWindow e).lock ≠ .unlocked) :
    s.windowExpiry img i e =
      s.onVsl (fun v => v.setMonitor i ((s.vsl.monitors.get i).miss img.frameWindow e)) := by
  rw [State.windowExpiry]
  exact if_neg h

/-- R147: the station that the loss of the live source leaves, but for its notice. -/
def State.liveLost (img : Image) (i : Source) (e : Nat) (s : State) : State :=
  s.onVsl (fun v => (v.setMonitor i Monitor.cold).loseLive img e)

theorem State.windowExpiry_loses
    (h : (s.vsl.monitors.get i).miss img.frameWindow e = Monitor.cold) (hl : s.vsl.live = some i) :
    s.windowExpiry img i e = (s.liveLost img i e).post .vsl .camera img.station 1 3 := by
  rw [State.windowExpiry, h]
  exact (if_pos rfl).trans (if_pos hl)

/-- R148: another source lost. -/
theorem State.windowExpiry_unlocks
    (h : (s.vsl.monitors.get i).miss img.frameWindow e = Monitor.cold) (hl : s.vsl.live ≠ some i) :
    s.windowExpiry img i e = s.onVsl (fun v => (v.setMonitor i Monitor.cold).rechoose img) := by
  rw [State.windowExpiry, h]
  exact (if_pos rfl).trans (if_neg hl)

theorem exec_frameWindowExpiry (hi : s.image = some img)
    (hw : (s.vsl.monitors.get i).window = some e) :
    exec (.frameWindowExpiry i) s = .next (((s.reach e).windowExpiry img i e).conclude img s) := by
  refine (withImage_some _ hi).trans ?_
  rw [hw]

/-- R155: an expiry that leaves the live source makes no video stop, and posts nothing. -/
theorem State.onVsl_concludes {f : Vsl → Vsl} (hf : (f s.vsl).live = s.vsl.live)
    (ht : s.con.together = []) :
    ((s.reach e).onVsl f).conclude img s = ((s.reach e).onVsl f).settleClick img := by
  refine State.conclude_silent img _ s (fun h => ?_) ht
  rwa [State.videoStopCondition_congr img s ((s.reach e).onVsl f) hf rfl rfl] at h

/-! ## The video stop (R155) -/

/-- R155: the condition as the statements spell it. -/
theorem State.videoStopCondition_iff : s.videoStopCondition img = true ↔
    img.roles.videoCritical = true ∧ s.vsl.live = none ∧ s.spu.showState = .run ∧
      img.isFree s.spu.cue = true := by
  simp [State.videoStopCondition, and_assoc]

/-- R155, R159: no video stop is made where one of its conditions fails, or own-stop is set already. -/
theorem State.videoStop_unraised (h : img.roles.videoCritical = false ∨ s.spu.showState ≠ .run ∨
    img.isFree s.spu.cue = false ∨ s.spu.ownStop = true) : s.videoStop img before = s := by
  unfold State.videoStop
  split
  next hc =>
    obtain ⟨hcritical, -, hrun, hfree⟩ := State.videoStopCondition_iff.1 (Bool.and_eq_true_iff.1 hc).1
    rcases h with h | h | h | h
    · exact absurd hcritical (Bool.eq_false_iff.1 h)
    · exact absurd hrun h
    · exact absurd hfree (Bool.eq_false_iff.1 h)
    · exact State.raiseStop_own h
  next => rfl

/-- R147: the end of the event that loses the live source, where no video stop is made. -/
theorem State.liveLost_concludes (ht : s.con.together = []) (h : img.roles.videoCritical = false ∨
    s.spu.showState ≠ .run ∨ img.isFree s.spu.cue = false ∨ s.spu.ownStop = true) :
    ((s.liveLost img i e).post .vsl .camera img.station 1 3).conclude img before =
      { (s.liveLost img i e).settleClick img with con := s.conAfter .camera img.station 1 3 } := by
  rw [State.conclude, State.videoStop_unraised, State.settleClick_post]
  · rfl
  · exact ht
  · exact h

/-- R159, R163, R165: a raise from another show state than STOPPED, whatever proposals are held. -/
theorem State.raiseStop_blocks (h : s.spu.ownStop = false) (hs : s.spu.showState ≠ .stopped) :
    (s.raiseStop img reason detail).spu =
        { s.spu with ownStop := true, stopPosted := true }.stopped (s.snapshotAtStop img) ∧
      (s.raiseStop img reason detail).psq = s.psq.withdraw.beginHold ∧
      (s.raiseStop img reason detail).vsl = s.vsl := by
  rw [State.raiseStop_clear h]
  obtain ⟨hspu, hpsq, -, hvsl, -⟩ :=
    State.enterStopped_blocks img 1 img.station reason.code (s.raisedInStop reason detail) hs
  exact ⟨hspu, hpsq, hvsl⟩

/-- R155: what the end of an event that makes the condition true leaves. -/
theorem State.conclude_videoStop (hb : before.videoStopCondition img = false)
    (hc : s.videoStopCondition img = true) (ho : s.spu.ownStop = false) :
    (s.conclude img before).spu =
        { s.spu with ownStop := true, stopPosted := true }.stopped (s.snapshotAtStop img) ∧
      (s.conclude img before).psq = s.psq.withdraw.beginHold ∧
      (s.conclude img before).vsl = s.vsl := by
  obtain ⟨-, -, hrun, -⟩ := State.videoStopCondition_iff.1 hc
  have hraise : s.videoStop img before = s.raiseStop img .video 0 :=
    if_pos (by rw [hc, hb]; rfl)
  rw [State.conclude, hraise]
  exact State.raiseStop_blocks ho (hrun ▸ nofun)

end

/-- Settles O46: a first or second miss, the live source lost without and with a video stop, another source lost. -/
theorem windowExpiryCountsMiss : Obligations.WindowExpiryCountsMiss := by
  intro s img i e hi hw hlock ht
  have hexec := exec_frameWindowExpiry (img := img) hi hw
  refine ⟨fun hm => ?_, fun hm hl hquiet => ?_, fun hm hl hcritical hrun hfree ho => ?_,
    fun hm hl => ?_⟩
  · have hmiss := Monitor.miss_counted (w := img.frameWindow) (e := e) hlock hm
    have hstays : ((s.vsl.monitors.get i).miss img.frameWindow e).lock ≠ .unlocked := by
      rw [hmiss]
      show (s.vsl.monitors.get i).lock ≠ .unlocked
      rcases hlock with h | ⟨g, h⟩ <;> rw [h] <;> nofun
    rw [State.windowExpiry_counts (s := s.reach e) hstays, State.onVsl_concludes rfl ht] at hexec
    exact ⟨_, hexec, congrArg (fun m => s.vsl.setMonitor i m) hmiss, rfl, rfl, rfl, rfl,
      State.settleClick_same img _, rfl, rfl, rfl⟩
  · rw [State.windowExpiry_loses (s := s.reach e) (Monitor.miss_third hlock hm) hl,
      State.liveLost_concludes (s := s.reach e) ht hquiet] at hexec
    refine ⟨_, hexec, rfl, rfl, rfl, ?_, Vsl.loseLive_chosen _ img e, rfl, rfl, rfl, rfl,
      State.settleClick_same img _, rfl, rfl, rfl⟩
    show (img.roles.video && none != s.vsl.desired) = _
    cases s.vsl.desired <;> rfl
  · rw [State.windowExpiry_loses (s := s.reach e) (Monitor.miss_third hlock hm) hl] at hexec
    have hbefore : s.videoStopCondition img = false := by
      simp [State.videoStopCondition, hl]
    obtain ⟨hspu, hpsq, hvsl⟩ := State.conclude_videoStop
      (s := ((s.reach e).liveLost img i e).post .vsl .camera img.station 1 3) hbefore
      (State.videoStopCondition_iff.2 ⟨hcritical, rfl, hrun, hfree⟩) ho
    refine ⟨_, hexec, ?_⟩
    show _ ∧ _ ∧ _
    rw [hspu, hpsq, hvsl]
    exact ⟨rfl, Vsl.loseLive_chosen _ img e, rfl, rfl, rfl, (Psq.beginHold_frame _).2, rfl⟩
  · rw [State.windowExpiry_unlocks (s := s.reach e) (Monitor.miss_third hlock hm) hl,
      State.onVsl_concludes rfl ht] at hexec
    exact ⟨_, hexec, rfl, rfl, rfl, rfl, Vsl.rechoose_chosen _ img, rfl, rfl, rfl, rfl,
      State.settleClick_same img _, rfl, rfl, rfl⟩

end Sys2Proof.Machine
end

section
/-! Show stops (Chapter 8): own-stop, the posted STOP and STOPPED over the operations of an event (O58). An operation
leaves own-stop and STOP as they are and does not leave STOPPED with own-stop set; only a raise and a release touch the
two. What does leave STOPPED (a commit, a resume commit, an adoption, STANDBY) is met with own-stop clear. -/

namespace Sys2Proof.Machine

/-! ## The stop record of SPU -/

/-- R158: what SPU holds of stops: own-stop, the posted STOP and the show state. -/
def Spu.stopRecord (u : Spu) : Bool × Bool × ShowState := (u.ownStop, u.stopPosted, u.showState)

theorem Spu.stopRecord_eq_iff {u v : Spu} : v.stopRecord = u.stopRecord ↔
    v.ownStop = u.ownStop ∧ v.stopPosted = u.stopPosted ∧ v.showState = u.showState := by
  simp [Spu.stopRecord]

@[simp] theorem Spu.takeCue_stopRecord (u : Spu) (cue : Nat) :
    (u.takeCue cue).stopRecord = u.stopRecord := by
  unfold Spu.takeCue
  split <;> rfl

@[simp] theorem Spu.dropForCue_stopRecord (u : Spu) (cue : Nat) :
    (u.dropForCue cue).stopRecord = u.stopRecord := by
  unfold Spu.dropForCue
  split <;> rfl

@[simp] theorem Spu.addOrigin_stopRecord (u : Spu) (k : Nat) :
    (u.addOrigin k).stopRecord = u.stopRecord := by
  unfold Spu.addOrigin
  split <;> rfl

@[simp] theorem Spu.recordCall_stopRecord (u : Spu) (f : CallFields) :
    (u.recordCall f).stopRecord = u.stopRecord := by
  unfold Spu.recordCall
  split <;> rfl

@[simp] theorem Spu.awaitCall_stopRecord (u : Spu) (own : Bool) :
    (u.awaitCall own).stopRecord = u.stopRecord := by
  unfold Spu.awaitCall
  split <;> rfl

@[simp] theorem Spu.recordResume_stopRecord (u : Spu) (f : ResumeFields) :
    (u.recordResume f).stopRecord = u.stopRecord := by
  unfold Spu.recordResume
  split <;> rfl

@[simp] theorem Spu.waitReference_stopRecord (u : Spu) (joined alone : Bool) :
    (u.waitReference joined alone).stopRecord = u.stopRecord := by
  unfold Spu.waitReference
  split
  · split <;> rfl
  · rfl

/-! ## The claim -/

section
variable {s t : State}

theorem State.stopClaim.same (h : s.stopClaim) (e : t.spu.stopRecord = s.spu.stopRecord) :
    t.stopClaim := by
  obtain ⟨ho, hp, hs⟩ := Spu.stopRecord_eq_iff.1 e
  unfold State.stopClaim
  rw [ho, hp, hs]
  exact h

/-- R162: own-stop is clear outside STOPPED. -/
theorem State.stopClaim.clear (h : s.stopClaim) (hs : s.spu.showState ≠ .stopped) :
    s.spu.ownStop = false := by
  rw [Bool.eq_false_iff]
  exact fun ho => hs (h.2 ho)

theorem State.stopClaim.ite {c : Prop} [Decidable c] (h : s.stopClaim) (g : t.stopClaim) :
    (if c then s else t).stopClaim := by
  split
  · exact h
  · exact g

end

/-- Own-stop and the posted STOP are as in s, and with own-stop set STOPPED is not left: s and t are states of one
event that has raised and released nothing between them. -/
structure KeepsStop (s t : State) : Prop where
  own : t.spu.ownStop = s.spu.ownStop
  posted : t.spu.stopPosted = s.spu.stopPosted
  stays : s.spu.ownStop = true → s.spu.showState = .stopped → t.spu.showState = .stopped

namespace KeepsStop

section
variable {s t : State} {img : Image}

theorem refl (s : State) : KeepsStop s s := ⟨rfl, rfl, fun _ => id⟩

theorem claim (h : KeepsStop s t) (hs : s.stopClaim) : t.stopClaim := by
  obtain ⟨hp, hst⟩ := hs
  refine ⟨by rw [h.posted, h.own, hp], fun ho => ?_⟩
  rw [h.own] at ho
  exact h.stays ho (hst ho)

theorem ite {c : Prop} [Decidable c] {u : State} (h : KeepsStop s t) (g : KeepsStop s u) :
    KeepsStop s (if c then t else u) := by
  split
  · exact h
  · exact g

/-! ### Operations that leave the stop record -/

theorem same {u : State} (h : KeepsStop s t) (e : u.spu.stopRecord = t.spu.stopRecord) :
    KeepsStop s u := by
  obtain ⟨ho, hp, hs⟩ := Spu.stopRecord_eq_iff.1 e
  exact ⟨ho.trans h.own, hp.trans h.posted, fun x y => hs.trans (h.stays x y)⟩

theorem onSpu {f : Spu → Spu} (h : KeepsStop s t)
    (e : (f t.spu).stopRecord = t.spu.stopRecord := by rfl) : KeepsStop s (t.onSpu f) := h.same e

theorem onLe {f : Le → Le} (h : KeepsStop s t) : KeepsStop s (t.onLe f) := h.same rfl

theorem onPsq {f : Psq → Psq} (h : KeepsStop s t) : KeepsStop s (t.onPsq f) := h.same rfl

theorem onCke {f : Cke → Cke} (h : KeepsStop s t) : KeepsStop s (t.onCke f) := h.same rfl

theorem onVsl {f : Vsl → Vsl} (h : KeepsStop s t) : KeepsStop s (t.onVsl f) := h.same rfl

theorem onCon {f : Con → Con} (h : KeepsStop s t) : KeepsStop s (t.onCon f) := h.same rfl

theorem reach {n : Nat} (h : KeepsStop s t) : KeepsStop s (t.reach n) := h.same rfl

theorem post {o : Origin} {kind : NoticeKind} {k d1 d2 : Nat} (h : KeepsStop s t) :
    KeepsStop s (t.post o kind k d1 d2) := h.same rfl

theorem handVideo (h : KeepsStop s t) : KeepsStop s (t.handVideo img) := h.onVsl

theorem callDropped {o : Origin} {k r a : Nat} (h : KeepsStop s t) :
    KeepsStop s (t.callDropped img o k r a) := h.post.ite h

theorem resumeDropped {o : Origin} {k r : Nat} (h : KeepsStop s t) :
    KeepsStop s (t.resumeDropped img o k r) := h.post.ite h

theorem fireRequest {form : FireForm} {x : Nat} (h : KeepsStop s t) :
    KeepsStop s (t.fireRequest img form x) := by
  obtain ⟨hspu, -⟩ := t.fireRequest_frame img form x
  exact h.same (by rw [hspu]; rfl)

theorem clearProposal (h : KeepsStop s t) : KeepsStop s t.clearProposal := h.onSpu.onPsq

theorem takeCall {k : Nat} {f : CallFields} (h : KeepsStop s t) :
    KeepsStop s (t.takeCall img k f) := by
  have h1 : KeepsStop s (t.onSpu (fun u => u.recordCall f)) := h.onSpu (Spu.recordCall_stopRecord _ f)
  unfold State.takeCall
  dsimp only
  split
  · exact h1.onSpu (Spu.awaitCall_stopRecord _ _)
  · exact h1
  · exact h1.onSpu (Spu.awaitCall_stopRecord _ _)
  next suspect _ => cases suspect <;> exact h1.onSpu
  · exact h1.onSpu.onPsq

theorem takeResume {k : Nat} {f : ResumeFields} (h : KeepsStop s t) :
    KeepsStop s (t.takeResume img k f) := by
  have h1 : KeepsStop s (t.onSpu (fun u => u.recordResume f)) :=
    h.onSpu (Spu.recordResume_stopRecord _ f)
  unfold State.takeResume
  dsimp only
  split
  · exact h1.onSpu
  · exact h1
  · exact h1.onSpu.onPsq

theorem adoptSnapshot {f : TallyFields} (h : KeepsStop s t) : KeepsStop s (t.adoptSnapshot f) := by
  unfold State.adoptSnapshot
  exact h.onSpu

theorem adoptStopPosition {e : Bool} {f : TallyFields} (h : KeepsStop s t) :
    KeepsStop s (t.adoptStopPosition img e f) :=
  have g := (h.onSpu (f := fun u => (u.takeCue f.cue).clearSuspect)
    (Spu.takeCue_stopRecord _ _)).onCke.adoptSnapshot
  g.handVideo.ite g

theorem reportAwaiting {c : Contributions} (h : KeepsStop s t) :
    KeepsStop s (t.reportAwaiting img c) := by
  unfold State.reportAwaiting
  exact
    have h1 := h.callDropped.ite h
    (h1.resumeDropped.ite h1).onSpu

theorem referenceWait (h : KeepsStop s t) : KeepsStop s (t.referenceWait img) :=
  (h.onSpu (Spu.waitReference_stopRecord _ _ _)).ite (h.onSpu.ite h)

theorem countResult {c : Contributions} {e : Nat} (h : KeepsStop s t) :
    KeepsStop s (t.countResult img c e).1 := by
  unfold State.countResult
  split
  · exact h.same rfl
  · exact h

theorem countDriven {d : Bool} {e : Nat} (h : KeepsStop s t) :
    KeepsStop s (t.countDriven img d e).1 := by
  unfold State.countDriven
  split
  · exact h.same rfl
  · exact h

theorem takePitCamfail {b : Bool} (h : KeepsStop s t) : KeepsStop s (t.takePitCamfail img b) :=
  h.ite h.onVsl.post

theorem lightLamp {b : Bool} (h : KeepsStop s t) : KeepsStop s (t.lightLamp img b) := h.onCon.ite h

theorem enterJoined {c : Nat} (h : KeepsStop s t) : KeepsStop s (t.enterJoined img c) :=
  h.onLe.onSpu.post

theorem enterIsolated {c : Nat} (h : KeepsStop s t) : KeepsStop s (t.enterIsolated img c) :=
  h.onLe.ite h.onLe.clearProposal.onSpu.post

theorem joinSilent {e : Nat} (h : KeepsStop s t) : KeepsStop s (t.joinSilent img e) :=
  h.onLe.enterJoined.onLe

theorem expireListen {b : Bool} {e : Nat} (h : KeepsStop s t) :
    KeepsStop s (t.expireListen img b e) := h.onLe.joinSilent.ite h.onLe

theorem afterRound {r : Round} {f : Bool} {b : LineState} (h : KeepsStop s t) :
    KeepsStop s (t.afterRound img r f b) := by
  cases b with
  | joined => exact (h.onLe.enterIsolated.ite h.onLe).ite h
  | listen => exact (h.onLe.enterJoined.ite h.enterJoined).ite h
  | offline => exact h
  | isolated => exact h

/-! ### Entering STOPPED (R163) -/

theorem enterStopped {d1 k d2 : Nat} (h : KeepsStop s t) :
    KeepsStop s (t.enterStopped img d1 k d2) := by
  by_cases hs : t.spu.showState = .stopped
  · rw [State.enterStopped_stopped img d1 k d2 t hs]
    exact h
  · obtain ⟨hspu, -⟩ := t.enterStopped_blocks img d1 k d2 hs
    refine ⟨?_, ?_, fun _ _ => ?_⟩ <;> rw [hspu]
    · exact h.own
    · exact h.posted
    · rfl

theorem receiveHalt {k : Nat} {f : HaltFields} (h : KeepsStop s t) :
    KeepsStop s (t.receiveHalt img k f) :=
  have g := h.onSpu (f := fun u => u.addOrigin k) (Spu.addOrigin_stopRecord _ k)
  (g.ite g.post).ite g.enterStopped

/-! ### Operations that leave STOPPED: own-stop is clear -/

section
variable (hc : s.spu.ownStop = false)
include hc

theorem onSpuClear {f : Spu → Spu} (h : KeepsStop s t)
    (ho : (f t.spu).ownStop = t.spu.ownStop := by rfl)
    (hp : (f t.spu).stopPosted = t.spu.stopPosted := by rfl) : KeepsStop s (t.onSpu f) :=
  ⟨ho.trans h.own, hp.trans h.posted, fun x => by rw [hc] at x; cases x⟩

theorem enterStandby (h : KeepsStop s t) : KeepsStop s (t.enterStandby img) := (h.onSpuClear hc).post

theorem applyCommit {c : Commit} (h : KeepsStop s t) : KeepsStop s (t.applyCommit img c) :=
  have g := (h.onSpuClear hc).post.fireRequest
  h.ite (g.ite g.onCke).handVideo

theorem takeEffect {c : Commit} (h : KeepsStop s t) : KeepsStop s (t.takeEffect img c) :=
  (h.ite (h.applyCommit hc).onSpu).ite (h.applyCommit hc)

theorem commitCall {x : HeldCall} {f o : Bool} (h : KeepsStop s t) :
    KeepsStop s (t.commitCall img x f o) := (h.takeEffect hc).ite h.onSpu.onCke

theorem decideCall {c : Contributions} {x : HeldCall} (h : KeepsStop s t) :
    KeepsStop s (t.decideCall img c x) :=
  h.clearProposal.callDropped.ite
    ((h.onSpu.ite (h.clearProposal.commitCall hc)).ite (h.clearProposal.commitCall hc))

theorem decideObserved {c : Contributions} {x : HeldCall} (h : KeepsStop s t) :
    KeepsStop s (t.decideObserved img c x) :=
  h.onSpu.callDropped.ite ((h.onSpu.ite (h.onSpu.commitCall hc)).ite (h.onSpu.commitCall hc))

theorem resumeCommit {x : HeldResume} (h : KeepsStop s t) : KeepsStop s (t.resumeCommit img x) :=
  (h.onSpuClear hc).onPsq.post.onCke.fireRequest.onVsl.handVideo

theorem decideResume {c : Contributions} {x : HeldResume} (h : KeepsStop s t) :
    KeepsStop s (t.decideResume img c x) :=
  h.clearProposal.resumeDropped.ite ((h.onSpu.ite h.clearProposal.post).ite (h.resumeCommit hc))

theorem decideProposal {c : Contributions} (h : KeepsStop s t) :
    KeepsStop s (t.decideProposal img c) := by
  unfold State.decideProposal
  split
  · exact h.decideCall hc
  · exact h.decideResume hc
  · exact h.decideObserved hc
  · exact h

theorem armedDownbeat (h : KeepsStop s t) : KeepsStop s (t.armedDownbeat img) := by
  unfold State.armedDownbeat
  split
  · exact h.onSpu.takeEffect hc
  · exact h

theorem countInComplete (h : KeepsStop s t) : KeepsStop s (t.countInComplete img) :=
  (h.onSpuClear hc).handVideo.ite h

theorem autoGo {cue : Nat} (h : KeepsStop s t) : KeepsStop s (t.autoGo img cue) := by
  have g : ∀ {c : Commit},
      KeepsStop s ((t.clearProposal.onSpu (fun u => { u with observed := none })).applyCommit img c) :=
    h.clearProposal.onSpu.applyCommit hc
  unfold State.autoGo
  dsimp only
  split
  · split
    · exact g.callDropped
    · exact g
  · exact h

theorem adoptOutOfStop {f : TallyFields} (h : KeepsStop s t) :
    KeepsStop s (t.adoptOutOfStop img f) := by
  obtain ⟨ho, hp, -⟩ := Spu.stopRecord_eq_iff.1 (t.spu.takeCue_stopRecord f.cue)
  exact (h.onSpuClear hc (f := fun u => (u.adoptOut f).clearSuspect) ho hp
    ).onPsq.onCke.handVideo.fireRequest.post

end

/-! ### The results of a round (R29, R30, R44) -/

/-- R122 step 5, R84: the reports of a count, which with own-stop set has reported nothing. -/
theorem takeReports {r : Reports} (hr : s.spu.ownStop = true → r = Reports.quiet) (h : KeepsStop s t) :
    KeepsStop s (t.takeReports img r) := by
  cases hc : s.spu.ownStop with
  | true => rw [hr hc]; exact h
  | false =>
    have h1 := KeepsStop.ite (c := r.launch = true) (h.onSpu (f := Spu.launchReport)) h
    have h2 := KeepsStop.ite (c := r.armed = true) (h1.armedDownbeat hc (img := img)) h1
    exact (h2.countInComplete hc).ite h2

theorem takeMatch {r : Reports} (hr : s.spu.ownStop = true → r = Reports.quiet) (h : KeepsStop s t) :
    KeepsStop s (t.takeMatch img r) := by
  cases hc : s.spu.ownStop with
  | true => rw [hr hc]; exact h
  | false =>
    unfold State.takeMatch
    split
    · exact h.autoGo hc
    · exact h

section
variable (hs : s.stopClaim)
include hs

/-- R170, R175: the station goes to STANDBY with own-stop clear, and decides a proposal outside STOPPED. -/
theorem decideVote {c : Contributions} (h : KeepsStop s t) : KeepsStop s (t.decideVote img c) := by
  unfold State.decideVote
  split
  · exact h.enterStopped
  split
  · split
    · exact h
    next ho => exact h.enterStandby (h.own ▸ Bool.eq_false_iff.2 ho)
  next hst => exact h.decideProposal (h.own ▸ (h.claim hs).clear hst)

/-- R122: with own-stop set the station is in STOPPED, where the click does not run. -/
theorem countResult_quiet {c : Contributions} {e : Nat} (h : KeepsStop s t) (ho : s.spu.ownStop = true) :
    (t.countResult img c e).2 = Reports.quiet := by
  simp [State.countResult, State.clickRuns_stopped (h.stays ho (hs.2 ho))]

theorem countDriven_quiet {d : Bool} {e : Nat} (h : KeepsStop s t) (ho : s.spu.ownStop = true) :
    (t.countDriven img d e).2 = Reports.quiet := by
  simp [State.countDriven, State.clickRuns_stopped (h.stays ho (hs.2 ho))]

theorem handResult {c : Contributions} {e : Nat} (h : KeepsStop s t) :
    KeepsStop s (t.handResult img c e) :=
  have hr := h.countResult_quiet hs (img := img) (c := c) (e := e)
  ((((h.countResult.onCke.takeReports hr).takePitCamfail.lightLamp.reportAwaiting.decideVote hs
    ).takeMatch hr).onSpu).referenceWait

theorem handLocal {c : Contributions} {e : Nat} (h : KeepsStop s t) :
    KeepsStop s (t.handLocal img c e) :=
  have hr := h.countResult_quiet hs (img := img) (c := c) (e := e)
  (((h.countResult.onCke.takeReports hr).takePitCamfail.lightLamp.decideVote hs).takeMatch hr).onSpu

theorem handBlind {d : Bool} {e : Nat} (h : KeepsStop s t) : KeepsStop s (t.handBlind img d e) := by
  have hr := h.countDriven_quiet hs (img := img) (d := d) (e := e)
  unfold State.handBlind
  exact ((h.countDriven.onCke.takeReports hr).takeMatch hr).onSpu

theorem handRound {r : Round} {b : Bool} {c : Contributions} (h : KeepsStop s t) :
    KeepsStop s (t.handRound img r b c) :=
  ((h.onLe.handResult hs).ite (h.onLe.handBlind hs)).ite h

end

/-! ### Adoption in the stop states (R184) -/

theorem enterStandbyClear {b : Bool} (h : KeepsStop s t) :
    KeepsStop s (if b && !t.spu.ownStop then t.enterStandby img else t) := by
  split
  next hb =>
    have ho : t.spu.ownStop = false := by simpa using (Bool.and_eq_true_iff.1 hb).2
    exact h.enterStandby (h.own ▸ ho)
  next => exact h

theorem adoptInStop {f : TallyFields} {e b : Bool} (h : KeepsStop s t) :
    KeepsStop s (t.adoptInStop img f e b) :=
  (h.enterStopped.ite h).adoptStopPosition.enterStandbyClear

end

end KeepsStop

/-! ## Raise, release and the operations that may raise -/

namespace State.stopClaim

section
variable {s t : State} {img : Image}

/-- R159, R162, R163: a raise sets own-stop and posts STOP together, and ends in STOPPED. -/
theorem raiseStop {r : StopReason} {d : Byte} (h : s.stopClaim) : (s.raiseStop img r d).stopClaim := by
  cases ho : s.spu.ownStop with
  | true => rw [State.raiseStop_own ho]; exact h
  | false =>
    by_cases hst : s.spu.showState = .stopped
    · rw [State.raiseStop_inStop ho hst]
      exact ⟨rfl, fun _ => hst⟩
    · obtain ⟨hspu, -⟩ := State.raiseStop_blocks (img := img) (reason := r) (detail := d) ho hst
      unfold State.stopClaim
      rw [hspu]
      exact ⟨rfl, fun _ => rfl⟩

theorem videoStop {b : State} (h : s.stopClaim) : (s.videoStop img b).stopClaim := h.raiseStop.ite h

theorem conclude {b : State} (h : s.stopClaim) : (s.conclude img b).stopClaim :=
  State.stopClaim.same (s := s.videoStop img b) h.videoStop rfl

/-- R169: a release clears own-stop and withdraws STOP together. -/
theorem release (h : s.stopClaim) : (s.release img).stopClaim := by
  unfold State.release
  split
  · exact h.same rfl
  split
  · exact ⟨rfl, nofun⟩
  · exact h

/-! ### Adoption (R182 to R185) -/

/-- R182: a station with own-stop set adopts at most the position of a TALLY. -/
theorem adoption_own {f : TallyFields} (h : s.stopClaim) (ho : s.spu.ownStop = true) :
    s.adoption img f = .noAdoption ∨ s.adoption img f = .inStop false false := by
  have hst := h.2 ho
  unfold State.adoption
  split
  · simp [Spu.adoptPlaying, hst, ho]
  · simp [Spu.adoptPlaying, hst, ho]
  · simp [State.adoptCountIn, hst]
  · simp [Spu.adoptStopped, hst]
  · simp [Spu.adoptStandby, hst, ho]

/-- R183: own-stop is clear before the adoption; the video stop of its step 5 may set it (R155). -/
theorem adoptPosition {f : TallyFields} (h : s.stopClaim) (hc : s.spu.ownStop = false) :
    (s.adoptPosition img f).stopClaim := by
  have e := (((s.spu.dropForCue f.cue).takeCue_stopRecord f.cue).trans
    (s.spu.dropForCue_stopRecord f.cue))
  obtain ⟨ho, hp, -⟩ := Spu.stopRecord_eq_iff.1 e
  have k1 := (KeepsStop.refl s).onSpuClear hc (f := fun u => (u.adoptRunning f).clearSuspect) ho hp
  exact
    have k2 := k1.onPsq.ite k1
    have k4 := k2.onCke.onCke.ite k2.onCke
    have h5 := ((k4.handVideo.claim h).videoStop).ite (k4.claim h)
    have k6 := (KeepsStop.refl _).fireRequest.ite (KeepsStop.refl _)
    (k6.post.ite k6).claim h5

theorem takeTally {k : Nat} {f : TallyFields} (h : s.stopClaim) :
    (s.takeTally img k f).stopClaim := by
  have hk := KeepsStop.refl s
  have hc : s.adoption img f ≠ .noAdoption → s.adoption img f ≠ .inStop false false →
      s.spu.ownStop = false := fun h1 h2 =>
    Bool.eq_false_iff.2 fun ho => (h.adoption_own ho).elim h1 h2
  unfold State.takeTally
  split
  · split
    next => exact h
    next => exact hk.onSpu.onCke.claim h
    next ha => exact h.adoptPosition (hc (ha ▸ nofun) (ha ▸ nofun))
    next ha => exact (hk.adoptOutOfStop (hc (ha ▸ nofun) (ha ▸ nofun))).claim h
    next => exact hk.adoptInStop.claim h
  · exact h

/-! ### Arrivals -/

theorem receiveTally {k : Nat} {f : TallyFields} (h : s.stopClaim) :
    (s.receiveTally img k f).stopClaim := by
  have hk := KeepsStop.refl s
  have h1 : (s.checkShowId img k f).stopClaim := (hk.onLe.post.ite hk).claim h
  exact h1.takeTally

theorem receive {k : Nat} {m : Message} (h : s.stopClaim) : (s.receive img k m).stopClaim := by
  have hk := KeepsStop.refl s
  cases m with
  | tally f => exact h.receiveTally
  | call f => exact (hk.post.ite hk.takeCall).claim h
  | tempo f => exact (hk.post.ite hk.onCke).claim h
  | halt f => exact hk.receiveHalt.claim h
  | resume f => exact (hk.post.ite hk.takeResume).claim h
  | camera x => exact hk.onVsl.handVideo.claim h

/-- R55: the event of an arrival, from the message taken to the end of the event. -/
theorem arrives {k : Nat} {m : Message} (h : s.stopClaim) :
    ((s.dropReceived.receive img k m).conclude img s).stopClaim :=
  have h1 : s.dropReceived.stopClaim := h.same rfl
  h1.receive.conclude

theorem receiveLocal {m : Message} (h : s.stopClaim) : (s.receiveLocal img m).stopClaim := by
  unfold State.receiveLocal
  split
  · exact h.receive
  · exact h.same rfl

end

end State.stopClaim

end Sys2Proof.Machine
end

section
/-! Show stops (Chapter 8), continued: every command keeps STOP posted exactly while own-stop is set, and own-stop only
in STOPPED (O58). Most commands leave SPU as it is; the others are the operations of the part before this one. -/

namespace Sys2Proof.Machine

/-! ## Commands that leave SPU -/

/-- Whatever state an outcome answers, SPU is as it was. -/
def LeavesSpu (s : State) (o : Host.Outcome State Fault Refusal) : Prop :=
  ∀ t, o = .next t → t.spu = s.spu

section
variable {s : State}

theorem next_leavesSpu {t : State} (h : t.spu = s.spu) : LeavesSpu s (.next t) := by
  rintro _ ⟨rfl⟩
  exact h

theorem withImage_leavesSpu {f : Image → State} (h : ∀ img, (f img).spu = s.spu) :
    LeavesSpu s (withImage s f) := by
  cases hi : s.image with
  | none => rw [withImage_none f hi]; exact next_leavesSpu rfl
  | some img => rw [withImage_some f hi]; exact next_leavesSpu (h img)

theorem withShow_leavesSpu {f : Image → State} (h : ∀ img, (f img).spu = s.spu) :
    LeavesSpu s (withShow s f) := by
  cases hi : s.image with
  | none => rw [withShow_none f hi]; exact next_leavesSpu rfl
  | some img => rw [withShow_some f hi]; exact next_leavesSpu (h img)

theorem withPress_leavesSpu {b : Button} {r : Bool} {f : Image → State → State}
    (h : ∀ img t, (f img t).spu = t.spu) : LeavesSpu s (withPress b r s f) := by
  unfold withPress
  dsimp only
  split
  · exact next_leavesSpu rfl
  · intro t ht
    exact withImage_leavesSpu (s := s.onCon _) (fun img => h img _) t ht

/-! ### The loader -/

theorem execByteArrival_spu {b : Byte} : LeavesSpu s (execByteArrival b s) := by
  unfold execByteArrival
  split <;> exact next_leavesSpu rfl

theorem execFailed_spu {r : Reading} : LeavesSpu s (execFailed r s) := by
  unfold execFailed
  split
  · split <;> exact next_leavesSpu rfl
  · exact next_leavesSpu rfl

/-! ### The line -/

theorem execRoundOpening_spu {t n : Nat} : LeavesSpu s (execRoundOpening t n s) :=
  withImage_leavesSpu fun img => by split <;> rfl

theorem execMarkSeen_spu {w : Samples} : LeavesSpu s (execMarkSeen w s) :=
  withImage_leavesSpu fun img => by
    split
    · dsimp only; split <;> rfl
    · rfl

theorem execVoteFieldStart_spu : LeavesSpu s (execVoteFieldStart s) :=
  withImage_leavesSpu fun img => by
    split
    · dsimp only
      split
      · split <;> rfl
      · rfl
    · rfl

theorem execLocalVoteFieldStart_spu : LeavesSpu s (execLocalVoteFieldStart s) :=
  withImage_leavesSpu fun img => by
    split
    · split <;> rfl
    · rfl

theorem execBreakStart_spu {p t : Nat} {w : Samples} : LeavesSpu s (execBreakStart p w s t) :=
  withImage_leavesSpu fun img => by split <;> rfl

theorem execTalkSlotStart_spu {k : Fin 3} : LeavesSpu s (execTalkSlotStart k s) :=
  withImage_leavesSpu fun img => by
    split
    · dsimp only
      split
      · split <;> rfl
      · rfl
    · rfl

theorem execSendComplete_spu : LeavesSpu s (execSendComplete s) :=
  withImage_leavesSpu fun img => by
    split
    · unfold State.reachSendEnd
      split <;> rfl
    · rfl

theorem execFailedSend_spu : LeavesSpu s (execFailedSend s) :=
  withImage_leavesSpu fun img => by split <;> rfl

theorem execCharacterReceived_spu {p : Nat} {w : Samples} :
    LeavesSpu s (execCharacterReceived p w s) :=
  withImage_leavesSpu fun img => by
    split
    · dsimp only; split <;> rfl
    · rfl

theorem execTalkSlotEnd_spu {k : Fin 3} : LeavesSpu s (execTalkSlotEnd k s) :=
  withImage_leavesSpu fun img => by
    split
    · dsimp only; split <;> rfl
    · rfl

theorem execReceiverResynchronised_spu : LeavesSpu s (execReceiverResynchronised s) :=
  next_leavesSpu rfl

theorem execMalformedMessage_spu : LeavesSpu s (execMalformedMessage s) :=
  withImage_leavesSpu fun img => by split <;> rfl

/-! ### The patch ports and the click -/

theorem execLoadStep_spu {p : Port} {t : Nat} : LeavesSpu s (execLoadStep p s t) :=
  withImage_leavesSpu fun _ => rfl

theorem execScanStep_spu {t : Nat} : LeavesSpu s (execScanStep s t) :=
  withImage_leavesSpu fun _ => rfl

theorem execActionSent_spu {p : Port} {t : Nat} : LeavesSpu s (execActionSent p t s) :=
  withImage_leavesSpu fun img => by
    split
    · split <;> rfl
    · rfl

theorem execSettleExpiry_spu {p : Port} : LeavesSpu s (execSettleExpiry p s) :=
  withImage_leavesSpu fun img => by split <;> rfl

theorem execBeatTimerExpiry_spu : LeavesSpu s (execBeatTimerExpiry s) :=
  withImage_leavesSpu fun img => by split <;> rfl

theorem execShadowTimerExpiry_spu : LeavesSpu s (execShadowTimerExpiry s) :=
  withImage_leavesSpu fun img => by split <;> rfl

theorem execSubTimerExpiry_spu : LeavesSpu s (execSubTimerExpiry s) :=
  withImage_leavesSpu fun img => by split <;> rfl

/-- R131: a TAP reaches CKE and the talk queue. -/
theorem State.tap_spu (img : Image) (s : State) : (s.tap img).spu = s.spu := by
  unfold State.tap
  dsimp only
  split
  · split
    · rfl
    · split <;> rfl
  · rfl

/-! ### The picture -/

theorem State.captionFrame_spu (img : Image) (ready : Bool) (s : State) :
    (s.captionFrame img ready).spu = s.spu := by
  unfold State.captionFrame
  split
  · split <;> rfl
  · rfl

theorem State.switchFrame_spu (img : Image) (i : Source) (s : State) :
    (s.switchFrame img i).spu = s.spu := by
  unfold State.switchFrame
  split <;> rfl

theorem State.syncFrame_spu (img : Image) (i : Source) (ready : Bool) (s : State) :
    (s.syncFrame img i ready).spu = s.spu := by
  unfold State.syncFrame
  dsimp only
  split
  · split
    · split
      · rw [State.captionFrame_spu, State.switchFrame_spu]; rfl
      · rw [State.switchFrame_spu]; rfl
    · rfl
  · rfl

theorem State.windowExpiry_spu (img : Image) (i : Source) (e : Nat) (s : State) :
    (s.windowExpiry img i e).spu = s.spu := by
  unfold State.windowExpiry
  dsimp only
  split
  · split <;> rfl
  · rfl

theorem execFrameSync_spu {i : Source} {t : Nat} {r : Bool} : LeavesSpu s (execFrameSync i t r s) :=
  withImage_leavesSpu fun img => (s.reach t).syncFrame_spu img i r

theorem execSlateTimerExpiry_spu {r : Bool} : LeavesSpu s (execSlateTimerExpiry r s) :=
  withImage_leavesSpu fun img => by
    split
    · exact State.captionFrame_spu _ _ _
    · rfl

theorem execCaptionSent_spu : LeavesSpu s (execCaptionSent s) := by
  unfold execCaptionSent
  split <;> exact next_leavesSpu rfl

/-! ### The console -/

theorem execGoPress_spu {r : Bool} : LeavesSpu s (execGoPress s r) :=
  withPress_leavesSpu fun img t => by split <;> rfl

theorem execSafetyDeassertion_spu : LeavesSpu s (execSafetyDeassertion s) := next_leavesSpu rfl

theorem execTapPress_spu {r : Bool} {t : Nat} : LeavesSpu s (execTapPress t s r) :=
  withPress_leavesSpu fun img u => (u.reach t).tap_spu img

/-- R195, R196: the ATTEND line is CON's, with an image held and without. -/
theorem execAttendLineChange_spu {a : Bool} : LeavesSpu s (execAttendLineChange a s) :=
  withImage_leavesSpu (s := s.onCon fun c => { c with attendLine := a }) fun _ => rfl

theorem execConsoleStatus_spu : LeavesSpu s (execConsoleStatus s) := next_leavesSpu rfl

theorem execOverflowClear_spu : LeavesSpu s (execOverflowClear s) := next_leavesSpu rfl

theorem execConsolePosition_spu : LeavesSpu s (execConsolePosition s) :=
  withShow_leavesSpu fun _ => rfl

theorem execNoticeRemoval_spu : LeavesSpu s (execNoticeRemoval s) := next_leavesSpu rfl

theorem execConsoleRestart_spu : LeavesSpu s (execConsoleRestart s) :=
  withShow_leavesSpu fun _ => rfl

theorem execUnknownCommand_spu {c : Byte} : LeavesSpu s (execUnknownCommand c s) :=
  next_leavesSpu rfl

theorem execConsoleNotice_spu : LeavesSpu s (execConsoleNotice s) := by
  unfold execConsoleNotice State.selectNotice
  split <;> exact next_leavesSpu rfl

theorem execConsoleGo_spu {x : BitVec 16} {w : Byte} : LeavesSpu s (execConsoleGo x w s) :=
  withShow_leavesSpu fun img => by
    unfold State.takeGo
    split
    · rfl
    · split <;> rfl

theorem execConsoleResume_spu {c b : BitVec 16} {n m : Byte} :
    LeavesSpu s (execConsoleResume c b n m s) :=
  withShow_leavesSpu fun img => by
    unfold State.requestResume
    split
    · rfl
    · split
      · unfold State.submitResume
        split <;> rfl
      · rfl

theorem execConsoleCamera_spu {x : Byte} : LeavesSpu s (execConsoleCamera x s) :=
  withShow_leavesSpu fun img => by split <;> rfl

theorem execConsoleTempo_spu {x : BitVec 16} {w : Byte} : LeavesSpu s (execConsoleTempo x w s) :=
  withShow_leavesSpu fun img => by split <;> rfl

theorem execConsoleAttend_spu {a : Byte} : LeavesSpu s (execConsoleAttend a s) :=
  withShow_leavesSpu fun img => by split <;> rfl

end

/-! ## Commands that reach SPU -/

/-- Whatever state an outcome answers, the claim of O58 is kept. -/
def KeepsClaim (s : State) (o : Host.Outcome State Fault Refusal) : Prop :=
  s.stopClaim → ∀ t, o = .next t → t.stopClaim

section
variable {s : State}

theorem next_keepsClaim {t : State} (h : s.stopClaim → t.stopClaim) : KeepsClaim s (.next t) := by
  rintro hs _ ⟨rfl⟩
  exact h hs

theorem LeavesSpu.keepsClaim {o : Host.Outcome State Fault Refusal} (h : LeavesSpu s o) :
    KeepsClaim s o := fun hs t ht => hs.same (congrArg Spu.stopRecord (h t ht))

theorem withImage_keepsClaim {f : Image → State}
    (h : ∀ img, s.stopClaim → KeepsStop s s → (f img).stopClaim) : KeepsClaim s (withImage s f) := by
  cases hi : s.image with
  | none => rw [withImage_none f hi]; exact next_keepsClaim id
  | some img => rw [withImage_some f hi]; exact next_keepsClaim fun hs => h img hs (KeepsStop.refl s)

theorem withShow_keepsClaim {f : Image → State} (h : ∀ img, s.stopClaim → (f img).stopClaim) :
    KeepsClaim s (withShow s f) := by
  cases hi : s.image with
  | none => rw [withShow_none f hi]; exact next_keepsClaim fun hs => hs.same rfl
  | some img => rw [withShow_some f hi]; exact next_keepsClaim (h img)

/-- R195: a press asserts its line, of which SPU holds nothing, before it is handed on. -/
theorem withPress_keepsClaim {b : Button} {r : Bool} {f : Image → State → State}
    (h : ∀ img t, t.stopClaim → (f img t).stopClaim) : KeepsClaim s (withPress b r s f) := by
  unfold withPress
  dsimp only
  split
  · exact next_keepsClaim id
  · exact fun hs => withImage_keepsClaim (fun img ht _ => h img _ ht) (hs.same rfl)

/-! ### The loader and the resets -/

theorem execColdReset_keepsClaim : KeepsClaim s (execColdReset s) :=
  next_keepsClaim fun _ => ⟨rfl, nofun⟩

/-- R16, R160: SPU starts with own-stop clear, and SAFETY as it stands may raise. -/
theorem execImageAccepted_keepsClaim {t : Nat} {img : Image} :
    KeepsClaim s (execImageAccepted t img s) := by
  unfold execImageAccepted
  dsimp only
  split
  · have h0 : ∀ u : State, (u.accept img).stopClaim := fun _ => ⟨rfl, nofun⟩
    exact next_keepsClaim fun _ => ((h0 _).raiseStop.ite (h0 _)).conclude
  · exact next_keepsClaim id

/-- R180: a warm reset keeps own-stop and the show state, and posts STOP as own-stop says. -/
theorem execWarmReset_keepsClaim {t : Nat} : KeepsClaim s (execWarmReset t s) := by
  unfold execWarmReset
  split
  · exact withImage_keepsClaim fun _ hs _ => ⟨rfl, hs.2⟩
  · exact next_keepsClaim id

/-! ### The line -/

theorem execRoundTimerExpiry_keepsClaim {b : Bool} : KeepsClaim s (execRoundTimerExpiry b s) :=
  withImage_keepsClaim fun img hs k => by
    split
    · refine State.stopClaim.conclude ?_
      split
      · exact hs.same rfl
      · split
        · exact hs.same rfl
        · exact k.reach.expireListen.claim hs
        all_goals exact hs.same rfl
    · exact hs

theorem execListenTimerExpiry_keepsClaim {b : Bool} : KeepsClaim s (execListenTimerExpiry b s) :=
  withImage_keepsClaim fun img hs k => by
    split
    · exact ((k.reach.onLe.joinSilent.ite k.reach.onLe).claim hs).conclude
    · exact hs

/-- R29, R155, R40: the results, the video stop that they raise, and LE's change of state. -/
theorem execVoteFieldComplete_keepsClaim {v0 v1 v2 v3 : Samples} :
    KeepsClaim s (execVoteFieldComplete v0 v1 v2 v3 s) :=
  withImage_keepsClaim fun img hs k => by
    split
    · exact
        have h2 := ((k.reach.onLe.handRound hs).claim hs).videoStop
        (((KeepsStop.refl _).afterRound.claim h2).conclude).ite hs
    · exact hs

theorem execLocalVoteFieldComplete_keepsClaim : KeepsClaim s (execLocalVoteFieldComplete s) :=
  withImage_keepsClaim fun img hs k => by
    split
    · exact ((k.reach.onLe.handLocal hs).claim hs).conclude.ite hs
    · exact hs

theorem execLocalTalkSlotStart_keepsClaim {n : Fin 3} : KeepsClaim s (execLocalTalkSlotStart n s) :=
  withImage_keepsClaim fun img hs k => by
    split
    · refine State.stopClaim.ite (State.stopClaim.conclude ?_) hs
      split
      · exact (k.reach.onLe.claim hs).receiveLocal
      · exact hs.same rfl
    · exact hs

theorem execLineFault_keepsClaim {t : Nat} : KeepsClaim s (execLineFault t s) :=
  withImage_keepsClaim fun _ hs k => (k.reach.enterIsolated.claim hs).conclude.ite hs

theorem execBreakSeen_keepsClaim {t : Nat} : KeepsClaim s (execBreakSeen s t) :=
  withImage_keepsClaim fun _ hs k =>
    ((k.reach.onLe.enterStopped.ite k.reach.onLe).claim hs).conclude.ite hs

/-! ### Messages -/

theorem execTallyArrival_keepsClaim : KeepsClaim s (execTallyArrival s) :=
  withImage_keepsClaim fun img hs _ => by
    split
    · exact hs.arrives (m := .tally _)
    · exact hs

theorem execCallArrival_keepsClaim : KeepsClaim s (execCallArrival s) :=
  withImage_keepsClaim fun img hs _ => by
    split
    · exact hs.arrives (m := .call _)
    · exact hs

theorem execResumeArrival_keepsClaim : KeepsClaim s (execResumeArrival s) :=
  withImage_keepsClaim fun img hs _ => by
    split
    · exact hs.arrives (m := .resume _)
    · exact hs

theorem execHaltArrival_keepsClaim : KeepsClaim s (execHaltArrival s) :=
  withImage_keepsClaim fun img hs _ => by
    split
    · exact hs.arrives (m := .halt _)
    · exact hs

theorem execTempoArrival_keepsClaim : KeepsClaim s (execTempoArrival s) :=
  withImage_keepsClaim fun img hs _ => by
    split
    · exact hs.arrives (m := .tempo _)
    · exact hs

theorem execCameraArrival_keepsClaim : KeepsClaim s (execCameraArrival s) :=
  withImage_keepsClaim fun img hs _ => by
    split
    next k x _ => exact hs.arrives (k := k) (m := .camera x)
    next => exact hs

/-! ### The picture -/

theorem execFrameWindowExpiry_keepsClaim {i : Source} : KeepsClaim s (execFrameWindowExpiry i s) :=
  withImage_keepsClaim fun img hs _ => by
    split
    · refine State.stopClaim.conclude (hs.same ?_)
      rw [State.windowExpiry_spu]
      rfl
    · exact hs

/-! ### Stop and release requests -/

/-- R159: a stop request at an instant, with the end of its event. -/
theorem State.stopClaim.requestStop {img : Image} {r : StopReason} {d : Byte} {t : Nat}
    (h : s.stopClaim) : (s.requestStop img r d t).stopClaim :=
  have h1 : (s.reach t).stopClaim := h.same rfl
  h1.raiseStop.conclude

theorem execStopPress_keepsClaim {r : Bool} {t : Nat} : KeepsClaim s (execStopPress s r t) :=
  withPress_keepsClaim fun _ _ h => h.requestStop

theorem execReleasePress_keepsClaim {r : Bool} : KeepsClaim s (execReleasePress s r) :=
  withPress_keepsClaim fun img _ h => (h.release (img := img)).same rfl

theorem execSafetyAssertion_keepsClaim {t : Nat} : KeepsClaim s (execSafetyAssertion s t) := by
  unfold execSafetyAssertion
  dsimp only
  split
  · exact next_keepsClaim id
  · exact fun hs => withImage_keepsClaim (fun _ h _ => h.requestStop) (hs.same rfl)

theorem execConsoleStop_keepsClaim {d : Byte} {t : Nat} : KeepsClaim s (execConsoleStop d s t) :=
  withShow_keepsClaim fun img h =>
    (h.requestStop (img := img) (r := .console) (d := d) (t := t)).same rfl

theorem execConsoleRelease_keepsClaim : KeepsClaim s (execConsoleRelease s) :=
  withShow_keepsClaim fun img h => (h.release (img := img)).same rfl

/-! ## The step -/

/-- Every command keeps STOP posted exactly while own-stop is set, and own-stop only in STOPPED. -/
theorem exec_keepsClaim (c : Instr) : KeepsClaim s (exec c s) := by
  cases c with
  | coldReset => exact execColdReset_keepsClaim
  | byteArrival b => exact execByteArrival_spu.keepsClaim
  | imageAccepted t img => exact execImageAccepted_keepsClaim
  | failed r => exact execFailed_spu.keepsClaim
  | roundOpening t n => exact execRoundOpening_spu.keepsClaim
  | roundTimerExpiry b => exact execRoundTimerExpiry_keepsClaim
  | listenTimerExpiry b => exact execListenTimerExpiry_keepsClaim
  | markSeen w => exact execMarkSeen_spu.keepsClaim
  | voteFieldStart => exact execVoteFieldStart_spu.keepsClaim
  | localVoteFieldStart => exact execLocalVoteFieldStart_spu.keepsClaim
  | voteFieldComplete v0 v1 v2 v3 => exact execVoteFieldComplete_keepsClaim
  | localVoteFieldComplete => exact execLocalVoteFieldComplete_keepsClaim
  | lineFault t => exact execLineFault_keepsClaim
  | breakStart p w t => exact execBreakStart_spu.keepsClaim
  | breakSeen t => exact execBreakSeen_keepsClaim
  | talkSlotStart k => exact execTalkSlotStart_spu.keepsClaim
  | localTalkSlotStart k => exact execLocalTalkSlotStart_keepsClaim
  | sendComplete => exact execSendComplete_spu.keepsClaim
  | failedSend => exact execFailedSend_spu.keepsClaim
  | talkSlotEnd k => exact execTalkSlotEnd_spu.keepsClaim
  | malformedMessage => exact execMalformedMessage_spu.keepsClaim
  | tallyArrival => exact execTallyArrival_keepsClaim
  | callArrival => exact execCallArrival_keepsClaim
  | resumeArrival => exact execResumeArrival_keepsClaim
  | haltArrival => exact execHaltArrival_keepsClaim
  | tempoArrival => exact execTempoArrival_keepsClaim
  | cameraArrival => exact execCameraArrival_keepsClaim
  | loadStep p t => exact execLoadStep_spu.keepsClaim
  | scanStep t => exact execScanStep_spu.keepsClaim
  | actionSent p t => exact execActionSent_spu.keepsClaim
  | settleExpiry p => exact execSettleExpiry_spu.keepsClaim
  | beatTimerExpiry => exact execBeatTimerExpiry_spu.keepsClaim
  | shadowTimerExpiry => exact execShadowTimerExpiry_spu.keepsClaim
  | subTimerExpiry => exact execSubTimerExpiry_spu.keepsClaim
  | frameSync i t r => exact execFrameSync_spu.keepsClaim
  | frameWindowExpiry i => exact execFrameWindowExpiry_keepsClaim
  | slateTimerExpiry r => exact execSlateTimerExpiry_spu.keepsClaim
  | captionSent => exact execCaptionSent_spu.keepsClaim
  | stopPress r t => exact execStopPress_keepsClaim
  | releasePress r => exact execReleasePress_keepsClaim
  | goPress r => exact execGoPress_spu.keepsClaim
  | tapPress t r => exact execTapPress_spu.keepsClaim
  | safetyAssertion t => exact execSafetyAssertion_keepsClaim
  | safetyDeassertion => exact execSafetyDeassertion_spu.keepsClaim
  | attendLineChange a => exact execAttendLineChange_spu.keepsClaim
  | consoleStatus => exact execConsoleStatus_spu.keepsClaim
  | overflowClear => exact execOverflowClear_spu.keepsClaim
  | consolePosition => exact execConsolePosition_spu.keepsClaim
  | consoleNotice => exact execConsoleNotice_spu.keepsClaim
  | noticeRemoval => exact execNoticeRemoval_spu.keepsClaim
  | consoleGo x w => exact execConsoleGo_spu.keepsClaim
  | consoleStop d t => exact execConsoleStop_keepsClaim
  | consoleRelease => exact execConsoleRelease_keepsClaim
  | consoleResume c b n m => exact execConsoleResume_spu.keepsClaim
  | consoleCamera x => exact execConsoleCamera_spu.keepsClaim
  | consoleTempo x w => exact execConsoleTempo_spu.keepsClaim
  | consoleAttend a => exact execConsoleAttend_spu.keepsClaim
  | consoleRestart => exact execConsoleRestart_spu.keepsClaim
  | unknownCommand c => exact (execUnknownCommand_spu (c := c)).keepsClaim
  | warmReset t => exact execWarmReset_keepsClaim
  | characterReceived p w => exact execCharacterReceived_spu.keepsClaim
  | receiverResynchronised => exact execReceiverResynchronised_spu.keepsClaim

end

/-- Settles O58: every command keeps the claim; own-stop is set and cleared with STOP, and STOPPED is left with own-stop
clear alone. -/
theorem stepKeepsStopClaim : Obligations.StepKeepsStopClaim := by
  unfold Obligations.StepKeepsStopClaim
  intro s t hs h
  unfold step at h
  split at h
  · exact next_keepsClaim id hs t h
  next c rest _ =>
    have hrest : ({ s with pending := rest } : State).stopClaim := hs
    exact exec_keepsClaim c hrest t h

end Sys2Proof.Machine
end

section
/-! The arrival of a TALLY (R54, R182, R183): the test, the outcomes that a playing and a counting-in TALLY have, and
what the adoption of position and state leaves. -/

namespace Sys2Proof.Machine

section
variable {s t u : State} {img : Image} {k : Nat} {f : TallyFields}

/-! ## The event (R54) -/

/-- The station t as SPU of s takes a TALLY: the message is off LE, the check of the show id may have marked its
sender, and the show stands. -/
structure BringsTally (s t : State) : Prop where
  spu : t.spu = s.spu
  psq : t.psq = s.psq
  cke : t.cke = s.cke
  vsl : t.vsl = s.vsl
  beatSource : t.le.beatSource = s.le.beatSource
  queue : t.le.queue = s.le.queue
  received : t.le.received = none
  host : SameHost s t

theorem State.checkShowId_brings (img : Image) (k : Nat) (f : TallyFields) (s : State) :
    BringsTally s (s.dropReceived.checkShowId img k f) := by
  unfold State.checkShowId
  split
  · exact ⟨rfl, rfl, rfl, rfl, rfl, rfl, rfl, rfl, rfl, rfl⟩
  · exact ⟨rfl, rfl, rfl, rfl, rfl, rfl, rfl, rfl, rfl, rfl⟩

theorem BringsTally.shown (h : BringsTally s t) (img : Image) :
    t.shownBar img = s.shownBar img ∧ t.shownBeat img = s.shownBeat img := by
  simp only [State.shownBar, State.shownBeat, h.spu, h.cke, and_self]

theorem BringsTally.heeds (h : BringsTally s t) (hh : Heeds img s k) : Heeds img t k := by
  unfold Heeds
  rw [h.beatSource, h.spu]
  exact hh

theorem exec_tallyArrival (hi : s.image = some img) (ha : Arrives img s k (.tally f)) :
    exec .tallyArrival s = .next
      (((s.dropReceived.checkShowId img k f).takeTally img k f).conclude img s) := by
  have harrives : s.arriving img .tally = some (k, .tally f) := State.arriving_of img s k (.tally f) ha
  refine (withImage_some _ hi).trans ?_
  simp only [harrives, State.receiveTally]

/-- A property holds after a TALLY's arrival when it holds at the end of the event, however SPU has come to it. -/
theorem completes_tally (hi : s.image = some img) (ha : Arrives img s k (.tally f)) {p : State → Prop}
    (h : ∀ t, BringsTally s t → p ((t.takeTally img k f).conclude img s)) :
    Completes .tallyArrival s p :=
  ⟨_, exec_tallyArrival hi ha, h _ (s.checkShowId_brings img k f)⟩

/-! ## The test and its outcomes (R182, R186) -/

/-- R182, R186: a TALLY that the station heeds is tested, unless its suspect bit is set. -/
theorem State.testsTally_of_heeds (hh : Heeds img s k) (hf : f.suspect = false) :
    s.testsTally img k f = true := by
  obtain ⟨hother, hsource | ⟨hsource, hsuspect⟩⟩ := hh
  · simp [State.testsTally, State.isSource, hf, hsource, hother]
  · simp [State.testsTally, State.isSource, hf, hsource, hsuspect, hother]

theorem State.tallyDiffers_iff : s.tallyDiffers img f = true ↔
    s.spu.suspect = true ∨ f.cue ≠ s.spu.cue ∨ f.bar ≠ s.shownBar img ∨ f.beat ≠ s.shownBeat img ∨
      f.showState ≠ s.spu.showState := by
  simp [State.tallyDiffers, or_assoc]

theorem State.adoption_playing (hf : f.showState = .preshow ∨ f.showState = .run)
    (hs : s.spu.showState = .preshow ∨ s.spu.showState = .run ∨ s.spu.showState = .countin) :
    s.adoption img f = .positionAndState := by
  have hplaying : s.spu.adoptPlaying = .positionAndState := by
    rcases hs with hs | hs | hs <;> simp only [Spu.adoptPlaying, hs]
  rcases hf with hf | hf <;> simp only [State.adoption, hf, hplaying]

theorem State.adoption_countin (hf : f.showState = .countin) : s.adoption img f =
    if s.spu.showState = .countin ∧ f.cue = s.spu.cue ∧ f.bar = s.shownBar img then .beatAlone
    else .noAdoption := by
  simp only [State.adoption, hf, State.adoptCountIn]

/-- R182: a TALLY that passes the test has the outcome of the table. -/
theorem State.takeTally_position (hh : Heeds img s k) (hf : f.suspect = false)
    (hd : s.tallyDiffers img f = true) (ha : s.adoption img f = .positionAndState) :
    s.takeTally img k f = s.adoptPosition img f := by
  rw [State.takeTally, State.testsTally_of_heeds hh hf, hd, ha]
  rfl

theorem State.takeTally_beat (hh : Heeds img s k) (hf : f.suspect = false)
    (hd : s.tallyDiffers img f = true) (ha : s.adoption img f = .beatAlone) :
    s.takeTally img k f = s.adoptBeat f := by
  rw [State.takeTally, State.testsTally_of_heeds hh hf, hd, ha]
  rfl

theorem State.takeTally_none (ha : s.adoption img f = .noAdoption) : s.takeTally img k f = s := by
  rw [State.takeTally, ha]
  exact ite_self s

/-! ## SPU at an adoption (R183 steps 1 to 3) -/

theorem Spu.adoptRunning_sameCue (v : Spu) (h : f.cue = v.cue) : v.adoptRunning f =
    { v with showState := f.showState, restart := none, launchPending := false } := by
  simp [Spu.adoptRunning, Spu.dropForCue, Spu.takeCue, h]

theorem Spu.adoptRunning_newCue (v : Spu) (h : f.cue ≠ v.cue) : v.adoptRunning f =
    { v with
      cue := f.cue, lastTransition := none, armed := none, proposal := none, observed := none
      showState := f.showState, restart := none, launchPending := false } := by
  simp [Spu.adoptRunning, Spu.dropForCue, Spu.takeCue, h]

/-- SPU v' after an adoption of position and state at v, but for the restart recall. -/
structure AdoptsShow (f : TallyFields) (v v' : Spu) : Prop where
  cue : v'.cue = f.cue
  showState : v'.showState = f.showState
  suspect : v'.suspect = false
  launchPending : v'.launchPending = false
  restart : v'.restart = none
  late : v'.late = v.late
  snapshot : v'.snapshot = v.snapshot
  ownStop : v'.ownStop = v.ownStop
  sameCue : f.cue = v.cue → v'.proposal = v.proposal ∧ v'.observed = v.observed ∧ v'.armed = v.armed ∧
    v'.lastTransition = v.lastTransition
  newCue : f.cue ≠ v.cue → v'.proposal = none ∧ v'.observed = none ∧ v'.armed = none ∧
    v'.lastTransition = none

theorem Spu.adoptRunning_adopts (f : TallyFields) (v : Spu) :
    AdoptsShow f v (v.adoptRunning f).clearSuspect := by
  by_cases h : f.cue = v.cue
  · rw [v.adoptRunning_sameCue h]
    exact ⟨h.symm, rfl, rfl, rfl, rfl, rfl, rfl, rfl, fun _ => ⟨rfl, rfl, rfl, rfl⟩, fun g => absurd h g⟩
  · rw [v.adoptRunning_newCue h]
    exact ⟨rfl, rfl, rfl, rfl, rfl, rfl, rfl, rfl, fun g => absurd g h, fun _ => ⟨rfl, rfl, rfl, rfl⟩⟩

/-! ## CKE at an adoption (R129, R139) -/

theorem Cke.clampBeat_of_part (c : Cke) {part : ClickPart} (h : c.part = some part) (beat : Nat) :
    c.clampBeat beat = if part.meter < beat then 1 else beat := by
  rw [Cke.clampBeat, Cke.meter, h]

/-- R139: the record that takes the adopted position: the one held, or the adopted cue's from its cue start. -/
def Cke.adoptBase (c : Cke) (img : Image) (cueChanged : Bool) (cue : Nat) : Cke :=
  if cueChanged then c.adoptCue img cue else c

theorem Cke.adopt_eq (c : Cke) (img : Image) (cueChanged : Bool) (f : TallyFields) :
    ∃ v, c.adopt img cueChanged f = { (c.adoptBase img cueChanged f.cue).dropSubs with
      bar := f.bar, beat := (c.adoptBase img cueChanged f.cue).clampBeat f.beat, vamp := v,
      launch := false } := ⟨_, rfl⟩

theorem Cke.adoptCue_part (c : Cke) (img : Image) (cue : Nat) :
    (c.adoptCue img cue).part = img.clickOf cue := by
  cases hp : img.clickOf cue with
  | none => simp only [Cke.adoptCue, Cke.cueStart_free c _ hp, Cke.freeStart]
  | some part =>
    simp only [Cke.adoptCue, Cke.cueStart_click c _ hp, Cke.clickStart, Bool.false_eq_true, if_false]

/-- R139: a cue start leaves a count-in and the mark of the last TAP. -/
theorem Cke.adoptBase_frame (c : Cke) (img : Image) (cueChanged : Bool) (cue : Nat) :
    (c.adoptBase img cueChanged cue).countIn = c.countIn ∧
      (c.adoptBase img cueChanged cue).tap = c.tap := by
  cases cueChanged with
  | false => exact ⟨rfl, rfl⟩
  | true =>
    cases hp : img.clickOf cue with
    | none =>
      simp only [Cke.adoptBase, if_true, Cke.adoptCue, Cke.cueStart_free c _ hp]
      exact ⟨rfl, rfl⟩
    | some part =>
      simp only [Cke.adoptBase, if_true, Cke.adoptCue, Cke.cueStart_click c _ hp]
      exact ⟨rfl, rfl⟩

theorem Cke.adopt_frame (c : Cke) (img : Image) (cueChanged : Bool) (f : TallyFields) :
    (c.adopt img cueChanged f).countIn = c.countIn ∧ (c.adopt img cueChanged f).tap = c.tap := by
  obtain ⟨v, h⟩ := c.adopt_eq img cueChanged f
  rw [h]
  exact c.adoptBase_frame img cueChanged f.cue

/-- The click record c' after an adoption of position and state at s. -/
structure AdoptsClick (img : Image) (f : TallyFields) (s : State) (c' : Cke) : Prop where
  countIn : c'.countIn = none
  bar : img.isFree f.cue = false → c'.bar = f.bar
  sameCue : f.cue = s.spu.cue → c'.part = s.cke.part ∧ c'.tempo = s.cke.tempo ∧
    ∀ p, s.cke.part = some p → img.isFree f.cue = false → f.beat ≤ p.meter → c'.beat = f.beat
  newCue : f.cue ≠ s.spu.cue → ∀ p, img.clickOf f.cue = some p →
    c'.part = some p ∧ c'.beat = if p.meter < f.beat then 1 else f.beat

theorem AdoptsClick.sameClick {c c' : Cke} (h : AdoptsClick img f s c) (g : SameClick c c') :
    AdoptsClick img f s c' := by
  obtain ⟨htempo, -, -, hbar, hbeat, -, -, -, hcountIn, -, hpart, -, -⟩ := g
  obtain ⟨h1, h2, h3, h4⟩ := h
  constructor <;> simp only [htempo, hbar, hbeat, hcountIn, hpart]
  · exact h1
  · exact h2
  · exact h3
  · exact h4

/-- R183 step 4: CKE's record, which is handed the position where that differs. -/
def State.adoptClick (img : Image) (f : TallyFields) (s : State) : Cke :=
  if s.positionDiffers img f then
    ({ s.cke with countIn := none } : Cke).adopt img (f.cue != s.spu.cue) f
  else { s.cke with countIn := none }

theorem State.positionDiffers_false (h : s.positionDiffers img f = false) :
    f.cue = s.spu.cue ∧ f.bar = s.shownBar img ∧ f.beat = s.shownBeat img := by
  simp only [State.positionDiffers, Bool.or_eq_false_iff, bne_eq_false_iff_eq] at h
  obtain ⟨⟨⟨⟨hcue, hbar⟩, hbeat⟩, -⟩, -⟩ := h
  exact ⟨hcue, hbar, hbeat⟩

theorem State.adoptClick_adopts (img : Image) (f : TallyFields) (s : State) :
    AdoptsClick img f s (s.adoptClick img f) := by
  cases hd : s.positionDiffers img f with
  | false =>
    obtain ⟨hcue, hbar, hbeat⟩ := State.positionDiffers_false hd
    have hclick : s.adoptClick img f = { s.cke with countIn := none } := by
      rw [State.adoptClick, hd]
      rfl
    rw [hclick]
    refine ⟨rfl, fun hfree => ?_, fun _ => ⟨rfl, rfl, fun p _ hfree _ => ?_⟩, fun h => absurd hcue h⟩
    · rw [hbar, State.shownBar, ← hcue, hfree]
      rfl
    · rw [hbeat, State.shownBeat, ← hcue, hfree]
      rfl
  | true =>
    obtain ⟨v, hadopt⟩ := ({ s.cke with countIn := none } : Cke).adopt_eq img (f.cue != s.spu.cue) f
    obtain ⟨hcountIn, -⟩ :=
      ({ s.cke with countIn := none } : Cke).adoptBase_frame img (f.cue != s.spu.cue) f.cue
    rw [State.adoptClick, if_pos hd, hadopt]
    refine ⟨hcountIn, fun _ => rfl, fun h => ?_, fun h p hp => ?_⟩
    · have hsame : (f.cue != s.spu.cue) = false := bne_eq_false_iff_eq.2 h
      rw [hsame]
      refine ⟨rfl, rfl, fun p hp _ hmeter => ?_⟩
      exact (Cke.clampBeat_of_part _ hp _).trans (if_neg (Nat.not_lt.2 hmeter))
    · have hnew : (f.cue != s.spu.cue) = true := bne_iff_ne.2 h
      have hpart := (({ s.cke with countIn := none } : Cke).adoptCue_part img f.cue).trans hp
      rw [hnew]
      exact ⟨hpart, Cke.clampBeat_of_part _ hpart _⟩

/-! ## The adoption of position and state (R183) -/

/-- The later state t of an adoption of position and state that began at s, with SPU and CKE told. -/
structure Adopts (img : Image) (f : TallyFields) (s t : State) : Prop where
  keeps : Keeps s t
  spu : AdoptsShow f s.spu t.spu
  cke : t.cke = s.adoptClick img f
  target : f.cue ≠ s.spu.cue → t.psq.target = none

theorem Adopts.ite {c : Prop} [Decidable c] (h : Adopts img f s t) (g : Adopts img f s u) :
    Adopts img f s (if c then t else u) := by
  split
  · exact h
  · exact g

theorem Adopts.handVideo (h : Adopts img f s t) : Adopts img f s (t.handVideo img) :=
  ⟨h.keeps.trans (Keeps.handVideo img t), h.spu, h.cke, h.target⟩

theorem Adopts.post {o : Origin} {kind : NoticeKind} {n d1 d2 : Nat} (h : Adopts img f s t) :
    Adopts img f s (t.post o kind n d1 d2) :=
  ⟨h.keeps.trans (Keeps.post o kind n d1 d2 t), h.spu, h.cke, h.target⟩

theorem Adopts.fireRequest {form : FireForm} {x : Nat} (h : Adopts img f s t) :
    Adopts img f s (t.fireRequest img form x) := by
  obtain ⟨hspu, htarget, hcke⟩ := t.fireRequest_frame img form x
  refine ⟨h.keeps.trans (Keeps.fireRequest img form x t), ?_, hcke.trans h.cke, fun g => ?_⟩
  · rw [hspu]
    obtain ⟨h1, h2, h3, h4, h5, h6, h7, h8, h9, h10⟩ := h.spu
    exact ⟨h1, h2, h3, h4, h5, h6, h7, h8, h9, h10⟩
  · exact htarget.trans (h.target g)

/-- R183: the notice of an adoption names the beat source as last handed (log entry 28). -/
theorem Adopts.posted {x : Nat} (h : Adopts img f s t) (hx : s.le.beatSource = some x) :
    Posted (t.postAdoption img) f.cue .cue x 4 0 := by
  have hfrom : t.adoptedFrom img = x := by
    rw [State.adoptedFrom, h.keeps.le, hx]
    rfl
  have hposted := State.post_posted .spu .cue (t.adoptedFrom img) 4 0 t
  rw [h.spu.cue, hfrom] at hposted
  rw [State.postAdoption, hfrom]
  exact hposted

/-- R183 steps 1 to 4. -/
def State.adoptTold (img : Image) (f : TallyFields) (s : State) : State :=
  let s1 := s.onSpu (fun u => (u.adoptRunning f).clearSuspect)
  let s2 := if (f.cue != s.spu.cue) = true then s1.onPsq Psq.withdraw else s1
  s2.onCke (fun _ => s.adoptClick img f)

theorem State.adoptTold_adopts (img : Image) (f : TallyFields) (s : State) :
    Adopts img f s (s.adoptTold img f) := by
  have htap : (s.adoptClick img f).tap = s.cke.tap := by
    unfold State.adoptClick
    split
    · exact (Cke.adopt_frame _ img _ f).2
    · rfl
  unfold State.adoptTold
  dsimp only
  split
  · exact ⟨((Keeps.onSpu _ s).trans (Keeps.onPsq _ _ (SameSlots.refl _))).trans (Keeps.onCke _ _ htap),
      s.spu.adoptRunning_adopts f, rfl, fun _ => rfl⟩
  next hsame =>
    exact ⟨(Keeps.onSpu _ s).trans (Keeps.onCke _ _ htap), s.spu.adoptRunning_adopts f, rfl,
      fun h => absurd (bne_iff_ne.2 h) hsame⟩

/-- R183: the rule's order, at a station that no video stop can meet. -/
theorem State.adoptPosition_eq (hv : img.roles.videoCritical = false) : s.adoptPosition img f =
    let changed := f.cue != s.spu.cue || f.showState != s.spu.showState
    let s4 := s.adoptTold img f
    let s5 := if changed then s4.handVideo img else s4
    let s6 := if f.cue != s.spu.cue || s.spu.restartRecall then s5.fireRequest img .recall f.cue else s5
    if changed then s6.postAdoption img else s6 := by
  have htold : ∀ s2 : State, s2.cke = s.cke →
      (if s.positionDiffers img f then (s2.onCke (fun c => { c with countIn := none })).onCke
          (fun c => c.adopt img (f.cue != s.spu.cue) f)
        else s2.onCke (fun c => { c with countIn := none })) = s2.onCke (fun _ => s.adoptClick img f) := by
    intro s2 h2
    unfold State.adoptClick
    split <;> simp only [State.onCke, h2]
  have hcke : (if (f.cue != s.spu.cue) = true then
      (s.onSpu (fun u => (u.adoptRunning f).clearSuspect)).onPsq Psq.withdraw
      else s.onSpu (fun u => (u.adoptRunning f).clearSuspect)).cke = s.cke := by
    split <;> rfl
  simp only [State.adoptPosition, State.adoptTold, State.videoStop_uncritical img _ s hv, htold _ hcke]

/-- R183: what the adoption leaves, and the notice it posts where the cue or the state changes. -/
theorem State.adoptPosition_adopts (hv : img.roles.videoCritical = false) :
    Adopts img f s (s.adoptPosition img f) ∧
      ∀ x, s.le.beatSource = some x → f.cue ≠ s.spu.cue ∨ f.showState ≠ s.spu.showState →
        Posted (s.adoptPosition img f) f.cue .cue x 4 0 := by
  rw [State.adoptPosition_eq hv]
  have h4 := s.adoptTold_adopts img f
  have h5 := h4.handVideo.ite (c := (f.cue != s.spu.cue || f.showState != s.spu.showState) = true) h4
  have h6 := h5.fireRequest (form := .recall) (x := f.cue) |>.ite
    (c := (f.cue != s.spu.cue || s.spu.restartRecall) = true) h5
  refine ⟨h6.post.ite h6, fun x hx hchanged => ?_⟩
  have hpos : (f.cue != s.spu.cue || f.showState != s.spu.showState) = true := by
    simpa using hchanged
  dsimp only
  rw [if_pos hpos]
  exact h6.posted hx

/-! ## The end of the event -/

/-- R193: what the event posted is told at its end. -/
theorem Posted.told {cue d1 d2 : Nat} {kind : NoticeKind} (h : Posted t cue kind k d1 d2) :
    Told (t.settleClick img).flush cue kind k d1 d2 :=
  State.flush_tells (t.settleClick img) _ h

end

end Sys2Proof.Machine
end

section
/-! The reference wait at a clean vote field of a JOINED station that holds nothing (R186): what the vote field does
before it and after it leaves the suspect flag and the count as they are, a video stop (R155) too. -/

namespace Sys2Proof.Machine

/-! ## What leaves the wait (R181, R186) -/

/-- The later state t of an event that began at s: nothing is held, and the suspect flag and the reference wait count
are as in s. -/
structure WaitStands (s t : State) : Prop where
  suspect : t.spu.suspect = s.spu.suspect
  refWait : t.spu.refWait = s.spu.refWait
  nothing : t.holdsNothing

section
variable {s t u : State} {img : Image} {c : Contributions}

theorem WaitStands.refl (h : s.holdsNothing) : WaitStands s s := ⟨rfl, rfl, h⟩

/-- The three are SPU's alone. -/
theorem WaitStands.of_spu (h : WaitStands s t) (e : u.spu = t.spu) : WaitStands s u := by
  refine ⟨?_, ?_, ?_⟩
  · rw [e]
    exact h.suspect
  · rw [e]
    exact h.refWait
  · unfold State.holdsNothing
    rw [e]
    exact h.nothing

theorem WaitStands.ite {b : Prop} [Decidable b] (h : WaitStands s t) (g : WaitStands s u) :
    WaitStands s (if b then t else u) := by
  split
  · exact h
  · exact g

theorem WaitStands.enterStopped {d1 k d2 : Nat} (h : WaitStands s t) :
    WaitStands s (t.enterStopped img d1 k d2) := by
  by_cases hs : t.spu.showState = .stopped
  · rw [State.enterStopped_stopped img d1 k d2 t hs]
    exact h
  · obtain ⟨hspu, -⟩ := State.enterStopped_blocks img d1 k d2 t hs
    refine WaitStands.of_spu (t := t.onSpu (fun v => v.stopped (t.snapshotAtStop img))) ?_ hspu
    exact ⟨h.suspect, h.refWait, rfl, rfl, rfl⟩

theorem WaitStands.raiseStop {reason : StopReason} {detail : Byte} (h : WaitStands s t) :
    WaitStands s (t.raiseStop img reason detail) := by
  cases ho : t.spu.ownStop with
  | true =>
    rw [State.raiseStop_own ho]
    exact h
  | false =>
    rw [State.raiseStop_clear ho]
    exact WaitStands.enterStopped ⟨h.suspect, h.refWait, h.nothing⟩

theorem WaitStands.videoStop {before : State} (h : WaitStands s t) :
    WaitStands s (t.videoStop img before) := h.raiseStop.ite h

theorem WaitStands.conclude {before : State} (h : WaitStands s t) :
    WaitStands s (t.conclude img before) :=
  h.videoStop.of_spu (State.flush_frame _).2.2.2.2.2.1

theorem WaitStands.countResult {edge : Nat} (h : WaitStands s t) :
    WaitStands s (t.countResult img c edge).1 := by
  unfold State.countResult
  split
  · exact h.of_spu rfl
  · exact h

/-- R122: with no armed GO the reports launch the cue and end the count-in. -/
theorem WaitStands.takeReports {r : Reports} (h : WaitStands s t) :
    WaitStands s (t.takeReports img r) := by
  have harmed : ∀ {v : State}, WaitStands s v → WaitStands s (v.armedDownbeat img) := by
    intro v hv
    obtain ⟨-, -, hnone⟩ := hv.nothing
    rw [State.armedDownbeat, hnone]
    exact hv
  have hcountIn : ∀ {v : State}, WaitStands s v → WaitStands s (v.countInComplete img) :=
    fun hv => WaitStands.ite ⟨hv.suspect, hv.refWait, hv.nothing⟩ hv
  have hlaunch : WaitStands s (if r.launch then t.onSpu Spu.launchReport else t) :=
    WaitStands.ite ⟨h.suspect, h.refWait, h.nothing⟩ h
  have h2 := (harmed hlaunch).ite (b := r.armed = true) hlaunch
  exact (hcountIn h2).ite h2

theorem WaitStands.heard (h : WaitStands s t) : WaitStands s (t.heard img c) :=
  have hanswered : WaitStands s (t.onSpu Spu.answered) := ⟨h.suspect, h.refWait, h.nothing⟩
  hanswered.of_spu (State.hears img c t).spu

/-- R73, R163, R170: with nothing held the vote stops the show, or brings it to STANDBY, or decides nothing. -/
theorem WaitStands.decideVote (h : WaitStands s t) : WaitStands s (t.decideVote img c) := by
  obtain ⟨hproposal, hobserved, -⟩ := h.nothing
  have hnone : t.decideProposal img c = t := by
    rw [State.decideProposal, hproposal, hobserved]
  have hstandby : WaitStands s (t.enterStandby img) := ⟨h.suspect, h.refWait, h.nothing⟩
  unfold State.decideVote
  rw [hnone]
  exact h.enterStopped.ite ((h.ite hstandby).ite h)

/-- R84: an auto-GO leaves the suspect flag. -/
theorem WaitStands.takeMatch {r : Reports} (h : WaitStands s t) : WaitStands s (t.takeMatch img r) := by
  cases hm : r.matched with
  | none =>
    rw [State.takeMatch_none hm]
    exact h
  | some cue =>
    rw [State.takeMatch_some hm]
    by_cases ht : t.spu.takesMatch img cue = true
    · obtain ⟨-, -, harmed⟩ := h.nothing
      obtain ⟨happ, -⟩ := State.autoGo_applies ht
      refine WaitStands.of_spu (t := t.onSpu (fun _ => (t.autoGo img cue).spu)) ?_ rfl
      rw [happ.spu]
      exact ⟨h.suspect, h.refWait, rfl, rfl, harmed⟩
    · rw [State.autoGo, if_neg ht]
      exact h

/-- R29, R69: the vote field up to the closing of its windows. -/
theorem WaitStands.closed {edge : Nat} (h : WaitStands s t) :
    WaitStands s ((t.decided img c edge).onSpu Spu.closeWindow) := by
  have hcounted : WaitStands s ((t.countResult img c edge).1.onCke Cke.withdrawSampled) :=
    h.countResult.of_spu rfl
  have hdecided : WaitStands s (t.decided img c edge) :=
    hcounted.takeReports.heard.decideVote.takeMatch
  exact ⟨hdecided.suspect, hdecided.refWait, hdecided.nothing⟩

/-! ## The wait (R186) -/

theorem State.referenceWait_other {x : Nat} (h : s.le.beatSource = some x) (hx : x ≠ img.station) :
    s.referenceWait img = s.onSpu (fun v => { v with refWait := 0 }) := by
  have hsource : ¬ s.isSource img = true := by
    rw [State.isSource_iff, h]
    exact fun e => hx (Option.some.inj e)
  rw [State.referenceWait, if_neg hsource, h]
  rfl

theorem State.referenceWait_trusted (h : s.isSource img = true) (hs : s.spu.suspect = false) :
    s.referenceWait img = s := by
  simp [State.referenceWait, h, Spu.waitReference, hs, State.onSpu]

theorem State.referenceWait_ends (h : s.isSource img = true) (hj : s.le.state = .joined)
    (hs : s.spu.suspect = true) (hn : s.le.thisMap = stationSet img.station ∨ 8 ≤ s.spu.refWait + 1) :
    s.referenceWait img = s.onSpu Spu.clearSuspect := by
  have hends : (s.le.thisMap == stationSet img.station || decide (8 ≤ s.spu.refWait + 1)) = true := by
    simpa using hn
  simp only [State.referenceWait, h, if_true, State.onSpu, Spu.waitReference, hj, hs, beq_self_eq_true,
    Bool.and_self, hends]

theorem State.referenceWait_counts (h : s.isSource img = true) (hj : s.le.state = .joined)
    (hs : s.spu.suspect = true) (hm : s.le.thisMap ≠ stationSet img.station) (hn : s.spu.refWait + 1 < 8) :
    s.referenceWait img = s.onSpu (fun v => { v with refWait := v.refWait + 1 }) := by
  have hmap : (s.le.thisMap == stationSet img.station) = false := beq_eq_false_iff_ne.2 hm
  have hcount : decide (8 ≤ s.spu.refWait + 1) = false := decide_eq_false (Nat.not_le.2 hn)
  simp only [State.referenceWait, h, if_true, State.onSpu, Spu.waitReference, hj, hs, beq_self_eq_true,
    Bool.and_self, hmap, hcount, Bool.or_self, Bool.false_eq_true, if_false]

theorem State.referenceWait_holdsNothing (h : s.holdsNothing) : (s.referenceWait img).holdsNothing := by
  obtain ⟨x, n, hwait, -⟩ := State.referenceWait_eq img s
  rw [hwait]
  exact h

/-! ## The event (R28, R29, R37, R155) -/

/-- R35, R57, R159: a raise leaves the run of read-back failures. -/
theorem State.raiseStop_readBackRun {reason : StopReason} {detail : Byte} :
    (s.raiseStop img reason detail).le.readBackRun = s.le.readBackRun := by
  have hhalt : ∀ l : Le, ∀ f : HaltFields, (l.submitHalt f).readBackRun = l.readBackRun := by
    intro l f
    unfold Le.submitHalt
    split
    · rfl
    · split <;> rfl
  cases ho : s.spu.ownStop with
  | true => rw [State.raiseStop_own ho]
  | false =>
    rw [State.raiseStop_clear ho, (Keeps.enterStopped img _ _ _ _).le]
    exact hhalt _ _

theorem State.videoStop_readBackRun {before : State} :
    (s.videoStop img before).le.readBackRun = s.le.readBackRun := by
  unfold State.videoStop
  split
  · exact State.raiseStop_readBackRun
  · rfl

end

section
variable {s : State} {img : Image} {r : Round} {d0 d1 d2 d3 : Byte} {v0 v1 v2 v3 : Samples}

/-- R28, R29, R155: the event of a clean vote field at a JOINED station. -/
theorem exec_voteFieldComplete_joined (hi : s.image = some img) (hj : s.le.state = .joined)
    (hr : CleanRound r s d0 d1 d2 d3 [v0, v1, v2, v3]) :
    exec (.voteFieldComplete v0 v1 v2 v3) s = .next
      (((((s.voted img r [v0, v1, v2, v3]).handResult img (Contributions.ofByte d0) r.edge).videoStop
        img s).countReadBack img r.drove (r.failsReadBack [v0, v1, v2, v3])).conclude img
        (((s.voted img r [v0, v1, v2, v3]).handResult img (Contributions.ofByte d0) r.edge).videoStop
          img s)) := by
  have hclean : r.judge (takeChars s.le.resync 0 [v0, v1, v2, v3]).1 = true := by
    rw [hr.taken]
    exact hr.judged
  have hseen : dataOf ((takeChars s.le.resync 0 [v0, v1, v2, v3]).1.getD 0 none) = d0 := by
    rw [hr.taken]
    rfl
  have htakes : (s.voted img r [v0, v1, v2, v3]).le.takesLine = true := by
    simp [State.voted, Le.takesLine, hj]
  obtain ⟨hround, hstage, -⟩ := hr
  have hhears : (decide (r.stage = .voting) && s.le.hearsLine) = true := by
    simp [hstage, Le.hearsLine, hj]
  refine (withImage_some _ hi).trans ?_
  simp only [hround, hhears, if_true, hclean, hseen, hj, State.handRound_voted htakes, State.afterRound]

/-- The station t at its reference wait, in the event of a clean round at s that gives a presence map. -/
structure ComesToWait (img : Image) (map : StationSet) (s t : State) : Prop where
  stands : WaitStands s t
  joined : t.le.state = .joined
  thisMap : t.le.thisMap = map
  beatSource : t.le.beatSource = img.reference map

/-- R28: the presence map that a clean round gives. -/
theorem CleanRound.thisMap (hr : CleanRound r s d0 d1 d2 d3 [v0, v1, v2, v3]) :
    (s.voted img r [v0, v1, v2, v3]).le.thisMap = presenceMap d1 d2 d3 := by
  obtain ⟨b, n, h⟩ := Le.sawAll_eq [v0, v1, v2, v3]
    (s.le.judged r true (takeChars s.le.resync 0 [v0, v1, v2, v3]).1
      (takeChars s.le.resync 0 [v0, v1, v2, v3]).2)
  rw [State.voted, State.onLe_le, State.reach_le, Le.voted, h, hr.taken]
  rfl

/-- R186: the suspect flag and the count after a clean vote field are those that the reference wait gives. -/
theorem completes_waited (hi : s.image = some img) (hj : s.le.state = .joined)
    (hr : CleanRound r s d0 d1 d2 d3 [v0, v1, v2, v3]) (hn : s.holdsNothing) {p : State → Prop}
    (h : ∀ t u, ComesToWait img (presenceMap d1 d2 d3) s t → WaitStands (t.referenceWait img) u → p u) :
    Completes (.voteFieldComplete v0 v1 v2 v3) s p := by
  have hexec := exec_voteFieldComplete_joined hi hj hr
  have hsource := hr.beatSource (img := img)
  have hmap := hr.thisMap (img := img)
  obtain ⟨-, -, -, -, -, -, -, hrun⟩ := hr
  obtain ⟨w, hw⟩ : ∃ w, w = s.voted img r [v0, v1, v2, v3] := ⟨_, rfl⟩
  rw [← hw] at hexec hsource hmap
  have hvoted : WaitStands s w := (WaitStands.refl hn).of_spu (hw ▸ rfl)
  have hstate : w.le.state = .joined := by
    simp only [hw, State.voted, State.onLe_le, State.reach_le, Le.voted_frame, hj]
  have hreadBack : w.le.readBackRun = s.le.readBackRun := by
    simp only [hw, State.voted, State.onLe_le, State.reach_le, Le.voted_frame]
  obtain ⟨hle, -⟩ := w.handResult_frame img (Contributions.ofByte d0) r.edge
  have hclosed := hvoted.closed (img := img) (c := Contributions.ofByte d0) (edge := r.edge)
  have hcloses : ((w.decided img (Contributions.ofByte d0) r.edge).onSpu Spu.closeWindow).le = w.le := by
    rw [← hle, State.handResult_eq]
    exact (Keeps.referenceWait img _).le.symm
  have hwaited := (WaitStands.refl (State.referenceWait_holdsNothing (img := img) hclosed.nothing)).videoStop
    (img := img) (before := s)
  rw [← State.handResult_eq] at hwaited
  rw [State.countReadBack_kept (fun hd hf => ?_)] at hexec
  · refine ⟨_, hexec, h _ _ ⟨hclosed, ?_, ?_, ?_⟩ (WaitStands.conclude (hwaited.of_spu rfl))⟩
    · rw [hcloses, hstate]
    · rw [hcloses, hmap]
    · rw [hcloses, hsource]
  · rw [State.videoStop_readBackRun, hle, hreadBack]
    exact hrun hj hd hf

end

end Sys2Proof.Machine
end

section
/-! Adoption from a TALLY and the reference wait (O34). -/

namespace Sys2Proof.Machine

section
variable {s : State} {img : Image} {k : Nat} {f : TallyFields}

/-- R182: a TALLY in COUNTIN that gives the beat alone. -/
theorem completes_tallyBeat (hi : s.image = some img) (ha : Arrives img s k (.tally f))
    (hh : Heeds img s k) (hf : f.suspect = false) (hst : f.showState = .countin)
    (hs : s.spu.showState = .countin) (hcue : f.cue = s.spu.cue) (hbar : f.bar = s.shownBar img)
    (hd : s.spu.suspect = true ∨ f.beat ≠ s.shownBeat img) :
    Completes .tallyArrival s (fun u =>
      u.spu = { s.spu with suspect := false, refWait := 0 } ∧
      (∀ p, s.cke.part = some p → u.cke.beat = if p.meter < f.beat then 1 else f.beat) ∧
      SameClick { s.cke with beat := u.cke.beat } u.cke ∧ u.psq = s.psq ∧ u.vsl = s.vsl ∧
      u.le.queue = s.le.queue ∧ SameHost s u) := by
  refine completes_tally hi ha (fun t ht => ?_)
  obtain ⟨hshownBar, hshownBeat⟩ := ht.shown img
  have hdiffers : t.tallyDiffers img f = true := by
    rw [State.tallyDiffers_iff, ht.spu, hshownBeat]
    exact hd.imp id (fun g => .inr (.inr (.inl g)))
  have hadopts : t.adoption img f = .beatAlone := by
    rw [State.adoption_countin hst, ht.spu, hshownBar]
    exact if_pos ⟨hs, hcue, hbar⟩
  have hcountin : (t.adoptBeat f).spu.showState ≠ .run := by
    show t.spu.showState ≠ .run
    rw [ht.spu, hs]
    nofun
  rw [State.takeTally_beat (ht.heeds hh) hf hdiffers hadopts, State.conclude,
    State.videoStop_unraised (.inr (.inl hcountin))]
  have hclick := State.settleClick_same img (t.adoptBeat f)
  have hbeat : ((t.adoptBeat f).settleClick img).cke.beat = s.cke.clampBeat f.beat := by
    rw [← ht.cke]
    exact (State.settleClick_fields img (t.adoptBeat f)).2.2.2.2.1
  refine ⟨congrArg Spu.clearSuspect ht.spu, fun p hp => hbeat.trans (Cke.clampBeat_of_part _ hp _), ?_,
    ht.psq, ht.vsl, ht.queue, ht.host⟩
  show SameClick { s.cke with beat := ((t.adoptBeat f).settleClick img).cke.beat }
    ((t.adoptBeat f).settleClick img).cke
  rw [hbeat, ← ht.cke]
  exact hclick

/-- R182: a TALLY in COUNTIN at a station that does not count in, or counts in elsewhere, gives nothing. -/
theorem completes_tallyNothing (hi : s.image = some img) (ha : Arrives img s k (.tally f))
    (hst : f.showState = .countin)
    (hs : s.spu.showState ≠ .countin ∨ f.cue ≠ s.spu.cue ∨ f.bar ≠ s.shownBar img) :
    Completes .tallyArrival s (fun u =>
      u.spu = s.spu ∧ SameClick s.cke u.cke ∧ u.psq = s.psq ∧ u.vsl = s.vsl ∧
      u.le.queue = s.le.queue ∧ SameHost s u) := by
  refine completes_tally hi ha (fun t ht => ?_)
  obtain ⟨hshownBar, -⟩ := ht.shown img
  have hadopts : t.adoption img f = .noAdoption := by
    rw [State.adoption_countin hst, ht.spu, hshownBar]
    refine if_neg (fun ⟨hcountin, hcue, hbar⟩ => ?_)
    rcases hs with h | h | h
    · exact h hcountin
    · exact h hcue
    · exact h hbar
  have hcondition : t.videoStopCondition img = s.videoStopCondition img :=
    State.videoStopCondition_congr img s t (by rw [ht.vsl]) (by rw [ht.spu]) (by rw [ht.spu])
  rw [State.takeTally_none hadopts, State.conclude_quiet img t s (fun h => hcondition ▸ h)]
  have hclick := State.settleClick_same img t
  rw [ht.cke] at hclick
  exact ⟨ht.spu, hclick, ht.psq, ht.vsl, ht.queue, ht.host⟩

/-- R183: what the event of an adoption of position and state leaves. -/
theorem completes_tallyPosition (hi : s.image = some img) (ha : Arrives img s k (.tally f))
    (hh : Heeds img s k) (hf : f.suspect = false) (hv : img.roles.videoCritical = false)
    (hst : f.showState = .preshow ∨ f.showState = .run)
    (hs : s.spu.showState = .preshow ∨ s.spu.showState = .run ∨ s.spu.showState = .countin)
    (hd : s.spu.suspect = true ∨ f.cue ≠ s.spu.cue ∨ f.bar ≠ s.shownBar img ∨
      f.beat ≠ s.shownBeat img ∨ f.showState ≠ s.spu.showState) :
    Completes .tallyArrival s (fun u =>
      AdoptsShow f s.spu u.spu ∧ AdoptsClick img f s u.cke ∧
      (f.cue ≠ s.spu.cue → u.psq.target = none) ∧
      (∀ x, s.le.beatSource = some x → f.cue ≠ s.spu.cue ∨ f.showState ≠ s.spu.showState →
        Told u f.cue .cue x 4 0) ∧
      u.le.queue = s.le.queue ∧ u.le.received = none ∧ SameHost s u) := by
  refine completes_tally hi ha (fun t ht => ?_)
  obtain ⟨hshownBar, hshownBeat⟩ := ht.shown img
  have hdiffers : t.tallyDiffers img f = true := by
    rw [State.tallyDiffers_iff, ht.spu, hshownBar, hshownBeat]
    exact hd
  have hposition : t.adoption img f = .positionAndState := State.adoption_playing hst (ht.spu ▸ hs)
  obtain ⟨hadopts, hposted⟩ := State.adoptPosition_adopts (s := t) (f := f) hv
  have hclick : AdoptsClick img f s (t.adoptPosition img f).cke := by
    obtain ⟨hcountIn, hbar, hsame, hnew⟩ := State.adoptClick_adopts img f t
    rw [ht.spu] at hsame hnew
    rw [ht.cke] at hsame
    rw [hadopts.cke]
    exact ⟨hcountIn, hbar, hsame, hnew⟩
  obtain ⟨hpending, himage, hreadings⟩ := ht.host
  rw [State.takeTally_position (ht.heeds hh) hf hdiffers hposition, State.conclude,
    State.videoStop_uncritical img _ s hv]
  refine ⟨ht.spu ▸ hadopts.spu, hclick.sameClick (State.settleClick_same img _),
    fun h => hadopts.target (ht.spu.symm ▸ h), fun x hx h => ?_,
    (congrArg Le.queue hadopts.keeps.le).trans ht.queue,
    (congrArg Le.received hadopts.keeps.le).trans ht.received,
    hadopts.keeps.pending.trans hpending, hadopts.keeps.image.trans himage,
    hadopts.keeps.readings.trans hreadings⟩
  exact (hposted x (ht.beatSource.trans hx) (ht.spu.symm ▸ h)).told

end

/-- Settles O34: the adoption of position and state, the beat alone and no adoption at a TALLY in COUNTIN, and the
reference wait of a clean round. -/
theorem tallyIsAdopted : Obligations.TallyIsAdopted := by
  unfold Obligations.TallyIsAdopted
  refine ⟨fun s img k f hi ha hh hf hv hst hs hd => ?_, fun s img k f hi ha hh hf hst => ⟨?_, ?_⟩,
    fun s img r d0 d1 d2 d3 v0 v1 v2 v3 hi hj _ hr hn => ?_⟩
  · obtain ⟨u, hexec, hshow, hclick, htarget, htold, hqueue, hreceived, hhost⟩ :=
      completes_tallyPosition hi ha hh hf hv hst hs hd
    refine ⟨u, hexec, hshow.cue, hshow.showState, hshow.suspect, hshow.launchPending, hshow.restart,
      hshow.late, hshow.snapshot, hshow.ownStop, hclick.bar, hclick.countIn, hqueue, hreceived, htold,
      fun hcue => ?_, fun hcue => ?_, hhost⟩
    · obtain ⟨hproposal, hobserved, harmed, hlast⟩ := hshow.sameCue hcue
      exact ⟨hproposal, hobserved, harmed, hlast, hclick.sameCue hcue⟩
    · obtain ⟨hproposal, hobserved, harmed, hlast⟩ := hshow.newCue hcue
      exact ⟨hproposal, hobserved, harmed, hlast, htarget hcue, hclick.newCue hcue⟩
  · exact completes_tallyBeat hi ha hh hf hst
  · exact completes_tallyNothing hi ha hst
  · refine completes_waited hi hj hr hn (fun t u ht hu => ⟨fun hsource hsuspect => ⟨fun hends => ?_,
      fun hmap hcount => ?_⟩, fun hsource htrusted => ?_, fun x hsource hother => ?_⟩)
    all_goals
      have hbeat := ht.beatSource.trans hsource
    · have hwait := State.referenceWait_ends (State.isSource_iff.2 hbeat) ht.joined
        (ht.stands.suspect.trans hsuspect) (by rw [ht.thisMap, ht.stands.refWait]; exact hends)
      rw [hwait] at hu
      exact ⟨hu.suspect, hu.refWait⟩
    · have hwait := State.referenceWait_counts (State.isSource_iff.2 hbeat) ht.joined
        (ht.stands.suspect.trans hsuspect) (by rw [ht.thisMap]; exact hmap)
        (by rw [ht.stands.refWait]; exact hcount)
      rw [hwait] at hu
      exact ⟨(hu.suspect.trans ht.stands.suspect).trans hsuspect,
        hu.refWait.trans (congrArg (· + 1) ht.stands.refWait)⟩
    · rw [State.referenceWait_trusted (State.isSource_iff.2 hbeat)
        (ht.stands.suspect.trans htrusted)] at hu
      exact (hu.suspect.trans ht.stands.suspect).trans htrusted
    · rw [State.referenceWait_other hbeat hother] at hu
      exact ⟨hu.suspect.trans ht.stands.suspect, hu.refWait⟩

end Sys2Proof.Machine
end

section
/-! The notice queue over the operations of an event (R193, O57). A posting of the step waits apart from the queue, so
that no operation of an event but the end of the event touches the queue itself; the end of the event moves the
postings into it one by one, each only where there is room. -/

namespace Sys2Proof.Machine

section
variable {s : State} {img : Image}

@[simp] theorem State.ite_notices (c : Prop) {_ : Decidable c} (t u : State) :
    (if c then t else u).con.notices = if c then t.con.notices else u.con.notices :=
  apply_ite (fun x : State => x.con.notices) c t u

/-! ## SPU's pipeline -/

@[simp] theorem State.fireRequest_notices (form : FireForm) (x : Nat) :
    (s.fireRequest img form x).con.notices = s.con.notices := (Keeps.fireRequest img form x s).notices

@[simp] theorem State.enterStopped_notices (d1 k d2 : Nat) :
    (s.enterStopped img d1 k d2).con.notices = s.con.notices := (Keeps.enterStopped img d1 k d2 s).notices

@[simp] theorem State.enterStandby_notices :
    (s.enterStandby img).con.notices = s.con.notices := (Keeps.enterStandby img s).notices

@[simp] theorem State.takeReports_notices (r : Reports) :
    (s.takeReports img r).con.notices = s.con.notices := (Keeps.takeReports img r s).notices

@[simp] theorem State.takeMatch_notices (r : Reports) :
    (s.takeMatch img r).con.notices = s.con.notices := (Keeps.takeMatch img r s).notices

@[simp] theorem State.reportAwaiting_notices (c : Contributions) :
    (s.reportAwaiting img c).con.notices = s.con.notices := (Keeps.reportAwaiting img c s).notices

@[simp] theorem State.decideVote_notices (c : Contributions) :
    (s.decideVote img c).con.notices = s.con.notices := (Keeps.decideVote img c s).notices

@[simp] theorem State.referenceWait_notices :
    (s.referenceWait img).con.notices = s.con.notices := (Keeps.referenceWait img s).notices

@[simp] theorem State.countResult_notices (c : Contributions) (e : Nat) :
    (s.countResult img c e).1.con.notices = s.con.notices := (Keeps.countResult img c e s).notices

@[simp] theorem State.countDriven_notices (d : Bool) (e : Nat) :
    (s.countDriven img d e).1.con.notices = s.con.notices := (Keeps.countDriven img d e s).notices

/-! ## Stops and releases (R155, R159, R169) -/

@[simp] theorem State.raiseStop_notices (r : StopReason) (d : Byte) :
    (s.raiseStop img r d).con.notices = s.con.notices := by
  simp [State.raiseStop]

@[simp] theorem State.videoStop_notices (b : State) :
    (s.videoStop img b).con.notices = s.con.notices := by
  simp [State.videoStop]

theorem State.readSafety_notices : (s.readSafety img).con.notices = s.con.notices := by
  simp [State.readSafety]

@[simp] theorem State.release_notices : (s.release img).con.notices = s.con.notices := by
  simp [State.release]

/-! ## Adoption (R182 to R185) -/

@[simp] theorem State.adoptPosition_notices (f : TallyFields) :
    (s.adoptPosition img f).con.notices = s.con.notices := by
  simp [State.adoptPosition, State.postAdoption]

@[simp] theorem State.adoptStopPosition_notices (entered : Bool) (f : TallyFields) :
    (s.adoptStopPosition img entered f).con.notices = s.con.notices := by
  simp [State.adoptStopPosition, State.adoptSnapshot]

@[simp] theorem State.adoptInStop_notices (f : TallyFields) (enter standby : Bool) :
    (s.adoptInStop img f enter standby).con.notices = s.con.notices := by
  simp [State.adoptInStop]

@[simp] theorem State.adoptOutOfStop_notices (f : TallyFields) :
    (s.adoptOutOfStop img f).con.notices = s.con.notices := by
  simp [State.adoptOutOfStop, State.postAdoption]

@[simp] theorem State.takeTally_notices (k : Nat) (f : TallyFields) :
    (s.takeTally img k f).con.notices = s.con.notices := by
  unfold State.takeTally
  split
  · cases s.adoption img f with
    | noAdoption => rfl
    | beatAlone => rfl
    | positionAndState => exact State.adoptPosition_notices f
    | outOfStop => exact State.adoptOutOfStop_notices f
    | inStop enter standby => exact State.adoptInStop_notices f enter standby
  · rfl

/-! ## Arrivals (R54, R55) -/

@[simp] theorem State.takeCall_notices (k : Nat) (f : CallFields) :
    (s.takeCall img k f).con.notices = s.con.notices := by
  unfold State.takeCall
  dsimp only
  split <;> rfl

@[simp] theorem State.takeResume_notices (k : Nat) (f : ResumeFields) :
    (s.takeResume img k f).con.notices = s.con.notices := by
  unfold State.takeResume
  dsimp only
  split <;> rfl

@[simp] theorem State.receive_notices (k : Nat) (m : Message) :
    (s.receive img k m).con.notices = s.con.notices := by
  cases m with
  | tally f => simp [State.receive, State.receiveTally, State.checkShowId]
  | call f => simp [State.receive, State.receiveCall, State.postIgnored]
  | tempo f => simp [State.receive, State.receiveTempo, State.postIgnored]
  | halt f => simp [State.receive, State.receiveHalt]
  | resume f => simp [State.receive, State.receiveResume, State.postIgnored]
  | camera x => rfl

@[simp] theorem State.receiveLocal_notices (m : Message) :
    (s.receiveLocal img m).con.notices = s.con.notices := by
  unfold State.receiveLocal
  split
  · exact State.receive_notices _ _
  · rfl

/-! ## The results of a round (R29, R30, R44) -/

@[simp] theorem State.takePitCamfail_notices (b : Bool) :
    (s.takePitCamfail img b).con.notices = s.con.notices := by
  simp [State.takePitCamfail]

@[simp] theorem State.lightLamp_notices (b : Bool) :
    (s.lightLamp img b).con.notices = s.con.notices := by
  simp [State.lightLamp]

@[simp] theorem State.handResult_notices (c : Contributions) (e : Nat) :
    (s.handResult img c e).con.notices = s.con.notices := by
  simp [State.handResult]

@[simp] theorem State.handLocal_notices (c : Contributions) (e : Nat) :
    (s.handLocal img c e).con.notices = s.con.notices := by
  simp [State.handLocal]

@[simp] theorem State.handBlind_notices (d : Bool) (e : Nat) :
    (s.handBlind img d e).con.notices = s.con.notices := by
  simp [State.handBlind]

@[simp] theorem State.handRound_notices (r : Round) (clean : Bool) (c : Contributions) :
    (s.handRound img r clean c).con.notices = s.con.notices := by
  simp [State.handRound]

/-! ## LE's changes of state (R39 to R43) -/

@[simp] theorem State.enterJoined_notices (cause : Nat) :
    (s.enterJoined img cause).con.notices = s.con.notices := by
  simp [State.enterJoined]

@[simp] theorem State.enterIsolated_notices (cause : Nat) :
    (s.enterIsolated img cause).con.notices = s.con.notices := by
  simp [State.enterIsolated, State.dropForLocal, State.clearProposal]

@[simp] theorem State.joinSilent_notices (e : Nat) :
    (s.joinSilent img e).con.notices = s.con.notices := by
  simp [State.joinSilent]

@[simp] theorem State.expireListen_notices (silent : Bool) (e : Nat) :
    (s.expireListen img silent e).con.notices = s.con.notices := by
  unfold State.expireListen
  dsimp only
  split
  · exact State.joinSilent_notices e
  · rfl

theorem State.countReadBack_notices (drove failed : Bool) :
    (s.countReadBack img drove failed).con.notices = s.con.notices := by
  unfold State.countReadBack
  split
  · dsimp only
    rw [State.ite_notices, State.enterIsolated_notices]
    exact ite_self _
  · rfl

@[simp] theorem State.afterRound_notices (r : Round) (failed : Bool) (before : LineState) :
    (s.afterRound img r failed before).con.notices = s.con.notices := by
  cases before with
  | joined => exact State.countReadBack_notices _ failed
  | listen => simp [State.afterRound, State.joinClean]
  | offline => rfl
  | isolated => rfl

/-! ## The picture (R143 to R153) -/

@[simp] theorem State.captionFrame_con (ready : Bool) : (s.captionFrame img ready).con = s.con := by
  unfold State.captionFrame
  split
  · split <;> rfl
  · rfl

@[simp] theorem State.switchFrame_notices (i : Source) :
    (s.switchFrame img i).con.notices = s.con.notices := by
  simp [State.switchFrame]

@[simp] theorem State.syncFrame_notices (i : Source) (ready : Bool) :
    (s.syncFrame img i ready).con.notices = s.con.notices := by
  unfold State.syncFrame
  dsimp only
  split
  · split
    · split <;> simp
    · rfl
  · rfl

@[simp] theorem State.windowExpiry_notices (i : Source) (e : Nat) :
    (s.windowExpiry img i e).con.notices = s.con.notices := by
  simp [State.windowExpiry]

end

/-! ## The end of an event (R193) -/

section
variable {s t : State} {img : Image}

/-- R193: whatever has been posted since a state in which the queue fits, the flush keeps it in bounds. -/
theorem State.noticesFit.flush (h : s.noticesFit) (e : t.con.notices = s.con.notices) :
    t.flush.noticesFit :=
  ⟨t.flush_length (e ▸ h.1), t.flush_together⟩

theorem State.noticesFit.conclude {b : State} (h : s.noticesFit)
    (e : t.con.notices = s.con.notices) : (t.conclude img b).noticesFit :=
  h.flush (by simpa using e)

theorem State.noticesFit.ite {c : Prop} [Decidable c] (h : s.noticesFit) (g : t.noticesFit) :
    (if c then s else t).noticesFit := by
  split
  · exact h
  · exact g

end

end Sys2Proof.Machine
end

section
/-! The notice queue (R193, O57), continued: every command keeps it at 32 records with no posting left over. A command
either ends its event, or posts nothing and leaves the queue; NOTICE_REMOVAL takes its oldest record away. -/

namespace Sys2Proof.Machine

/-! ## Outcomes -/

/-- The part of CON that the claim of O57 reads: the queue and the postings of the step. -/
def Con.postings (c : Con) : List Notice × List (Origin × Notice) := (c.notices, c.together)

/-- Whatever state an outcome answers, the claim of O57 is kept. -/
def KeepsFit (s : State) (o : Host.Outcome State Fault Refusal) : Prop :=
  s.noticesFit → ∀ t, o = .next t → t.noticesFit

section
variable {s : State}

theorem State.noticesFit.same {t : State} (h : s.noticesFit)
    (e : t.con.postings = s.con.postings := by rfl) : t.noticesFit := by
  obtain ⟨hn, ht⟩ := Prod.mk.inj e
  obtain ⟨hlength, hempty⟩ := h
  exact ⟨hn ▸ hlength, ht.trans hempty⟩

theorem next_keepsFit {t : State} (h : s.noticesFit → t.noticesFit) : KeepsFit s (.next t) := by
  rintro hs _ ⟨rfl⟩
  exact h hs

theorem withImage_keepsFit {f : Image → State} (h : ∀ img, s.noticesFit → (f img).noticesFit) :
    KeepsFit s (withImage s f) := by
  cases hi : s.image with
  | none => rw [withImage_none f hi]; exact next_keepsFit id
  | some img => rw [withImage_some f hi]; exact next_keepsFit (h img)

theorem withShow_keepsFit {f : Image → State} (h : ∀ img, s.noticesFit → (f img).noticesFit) :
    KeepsFit s (withShow s f) := by
  cases hi : s.image with
  | none => rw [withShow_none f hi]; exact next_keepsFit fun hs => hs.same
  | some img => rw [withShow_some f hi]; exact next_keepsFit (h img)

/-- R195: a press asserts its line, and the queue stands, before it is handed on. -/
theorem withPress_keepsFit {b : Button} {r : Bool} {f : Image → State → State}
    (h : ∀ img t, t.noticesFit → (f img t).noticesFit) : KeepsFit s (withPress b r s f) := by
  unfold withPress
  dsimp only
  split
  · exact next_keepsFit id
  · exact fun hs => withImage_keepsFit (fun img => h img _) hs.same

/-- A command that posts nothing and leaves the queue, where it takes place at all. -/
theorem withImage_quiet {f : Image → State} (h : ∀ img, (f img).con.postings = s.con.postings) :
    KeepsFit s (withImage s f) := withImage_keepsFit fun img hs => hs.same (h img)

theorem withShow_quiet {f : Image → State} (h : ∀ img, (f img).con.postings = s.con.postings) :
    KeepsFit s (withShow s f) := withShow_keepsFit fun img hs => hs.same (h img)

/-! ## The loader and the resets -/

/-- R194: at a cold reset the queue holds RESTART alone. -/
theorem execColdReset_keepsFit : KeepsFit s (execColdReset s) :=
  next_keepsFit fun _ => resetKeepsInvariants.1

theorem Con.takeByte_postings (c : Con) (b : Byte) : (c.takeByte b).postings = c.postings := by
  unfold Con.takeByte Con.endRead Con.declare
  repeat' split
  all_goals rfl

theorem execByteArrival_keepsFit {b : Byte} : KeepsFit s (execByteArrival b s) := by
  unfold execByteArrival
  split
  · exact next_keepsFit fun hs => hs.same (Con.takeByte_postings _ _)
  · exact next_keepsFit id

/-- R16: acceptance leaves the queue; SAFETY as it stands may post a stop. -/
theorem execImageAccepted_keepsFit {t : Nat} {img : Image} :
    KeepsFit s (execImageAccepted t img s) := by
  unfold execImageAccepted
  dsimp only
  split
  · exact next_keepsFit fun hs => hs.conclude ((State.readSafety_notices).trans rfl)
  · exact next_keepsFit id

theorem execFailed_keepsFit {r : Reading} : KeepsFit s (execFailed r s) := by
  unfold execFailed
  split
  · split
    · exact next_keepsFit fun hs => hs.flush rfl
    · exact next_keepsFit id
  · exact next_keepsFit id

/-- R192: a warm reset empties the queue and then posts RESTART. -/
theorem execWarmReset_keepsFit {t : Nat} : KeepsFit s (execWarmReset t s) := by
  unfold execWarmReset
  split
  · refine withImage_keepsFit fun img hs => ?_
    have hwarm : ({ s with con := s.con.warm } : State).noticesFit := ⟨Nat.zero_le _, rfl⟩
    exact hwarm.flush rfl
  · exact next_keepsFit id

/-! ## The line -/

theorem execRoundOpening_keepsFit {t n : Nat} : KeepsFit s (execRoundOpening t n s) :=
  withImage_quiet fun _ => by split <;> rfl

theorem execRoundTimerExpiry_keepsFit {b : Bool} : KeepsFit s (execRoundTimerExpiry b s) :=
  withImage_keepsFit fun img hs => by
    split
    · refine hs.conclude ?_
      split
      · rfl
      · split
        · rfl
        · exact State.expireListen_notices _ _
        · rfl
        · rfl
    · exact hs

theorem execListenTimerExpiry_keepsFit {b : Bool} : KeepsFit s (execListenTimerExpiry b s) :=
  withImage_keepsFit fun img hs => by
    split
    · refine hs.conclude ?_
      dsimp only
      split
      · exact State.joinSilent_notices _
      · rfl
    · exact hs

theorem execMarkSeen_keepsFit {w : Samples} : KeepsFit s (execMarkSeen w s) :=
  withImage_quiet fun _ => by
    split
    · dsimp only; split <;> rfl
    · rfl

theorem execVoteFieldStart_keepsFit : KeepsFit s (execVoteFieldStart s) :=
  withImage_quiet fun _ => by
    split
    · dsimp only
      split
      · split <;> rfl
      · rfl
    · rfl

theorem execLocalVoteFieldStart_keepsFit : KeepsFit s (execLocalVoteFieldStart s) :=
  withImage_quiet fun _ => by
    split
    · split <;> rfl
    · rfl

/-- R29, R155, R40: the results, the video stop that they raise, and LE's change of state. -/
theorem execVoteFieldComplete_keepsFit {v0 v1 v2 v3 : Samples} :
    KeepsFit s (execVoteFieldComplete v0 v1 v2 v3 s) :=
  withImage_keepsFit fun img hs => by
    split
    · exact (hs.conclude (by simp)).ite hs
    · exact hs

theorem execLocalVoteFieldComplete_keepsFit : KeepsFit s (execLocalVoteFieldComplete s) :=
  withImage_keepsFit fun img hs => by
    split
    · exact (hs.conclude (by simp)).ite hs
    · exact hs

theorem execLineFault_keepsFit {t : Nat} : KeepsFit s (execLineFault t s) :=
  withImage_keepsFit fun _ hs => (hs.conclude (by simp)).ite hs

theorem execBreakStart_keepsFit {p t : Nat} {w : Samples} : KeepsFit s (execBreakStart p w s t) :=
  withImage_quiet fun _ => by split <;> rfl

theorem execBreakSeen_keepsFit {t : Nat} : KeepsFit s (execBreakSeen s t) :=
  withImage_keepsFit fun _ hs => (hs.conclude (by simp)).ite hs

theorem execTalkSlotStart_keepsFit {k : Fin 3} : KeepsFit s (execTalkSlotStart k s) :=
  withImage_quiet fun _ => by
    split
    · dsimp only
      split
      · split <;> rfl
      · rfl
    · rfl

/-- R44, R55: a message taken as sent arrives in the same event. -/
theorem execLocalTalkSlotStart_keepsFit {k : Fin 3} : KeepsFit s (execLocalTalkSlotStart k s) :=
  withImage_keepsFit fun img hs => by
    split
    · refine (hs.conclude ?_).ite hs
      split
      · exact State.receiveLocal_notices _
      · rfl
    · exact hs

theorem execSendComplete_keepsFit : KeepsFit s (execSendComplete s) :=
  withImage_quiet fun _ => by
    split
    · unfold State.reachSendEnd
      split <;> rfl
    · rfl

theorem execFailedSend_keepsFit : KeepsFit s (execFailedSend s) :=
  withImage_quiet fun _ => by split <;> rfl

theorem execCharacterReceived_keepsFit {p : Nat} {w : Samples} :
    KeepsFit s (execCharacterReceived p w s) :=
  withImage_quiet fun _ => by
    split
    · dsimp only; split <;> rfl
    · rfl

theorem execTalkSlotEnd_keepsFit {k : Fin 3} : KeepsFit s (execTalkSlotEnd k s) :=
  withImage_quiet fun _ => by
    split
    · dsimp only; split <;> rfl
    · rfl

theorem execReceiverResynchronised_keepsFit : KeepsFit s (execReceiverResynchronised s) :=
  next_keepsFit fun hs => hs.same

/-! ## Messages -/

theorem execMalformedMessage_keepsFit : KeepsFit s (execMalformedMessage s) :=
  withImage_quiet fun _ => by split <;> rfl

/-- R55, R193: the event of an arrival, from the message taken to the end of the event. -/
theorem State.noticesFit.arrives {img : Image} {k : Nat} {m : Message} (h : s.noticesFit) :
    ((s.dropReceived.receive img k m).conclude img s).noticesFit :=
  h.conclude (State.receive_notices (s := s.dropReceived) k m)

theorem execTallyArrival_keepsFit : KeepsFit s (execTallyArrival s) :=
  withImage_keepsFit fun img hs => by
    split
    · exact hs.arrives (m := .tally _)
    · exact hs

theorem execCallArrival_keepsFit : KeepsFit s (execCallArrival s) :=
  withImage_keepsFit fun img hs => by
    split
    · exact hs.arrives (m := .call _)
    · exact hs

theorem execResumeArrival_keepsFit : KeepsFit s (execResumeArrival s) :=
  withImage_keepsFit fun img hs => by
    split
    · exact hs.arrives (m := .resume _)
    · exact hs

theorem execHaltArrival_keepsFit : KeepsFit s (execHaltArrival s) :=
  withImage_keepsFit fun img hs => by
    split
    · exact hs.arrives (m := .halt _)
    · exact hs

theorem execTempoArrival_keepsFit : KeepsFit s (execTempoArrival s) :=
  withImage_keepsFit fun img hs => by
    split
    · exact hs.arrives (m := .tempo _)
    · exact hs

theorem execCameraArrival_keepsFit : KeepsFit s (execCameraArrival s) :=
  withImage_keepsFit fun img hs => by
    split
    next k x _ => exact hs.arrives (k := k) (m := .camera x)
    next => exact hs

/-! ## The patch ports and the click -/

theorem execLoadStep_keepsFit {p : Port} {t : Nat} : KeepsFit s (execLoadStep p s t) :=
  withImage_quiet fun _ => rfl

theorem execScanStep_keepsFit {t : Nat} : KeepsFit s (execScanStep s t) :=
  withImage_quiet fun _ => rfl

theorem execActionSent_keepsFit {p : Port} {t : Nat} : KeepsFit s (execActionSent p t s) :=
  withImage_quiet fun _ => by
    split
    · split <;> rfl
    · rfl

theorem execSettleExpiry_keepsFit {p : Port} : KeepsFit s (execSettleExpiry p s) :=
  withImage_quiet fun _ => by split <;> rfl

theorem execBeatTimerExpiry_keepsFit : KeepsFit s (execBeatTimerExpiry s) :=
  withImage_quiet fun _ => by split <;> rfl

theorem execShadowTimerExpiry_keepsFit : KeepsFit s (execShadowTimerExpiry s) :=
  withImage_quiet fun _ => by split <;> rfl

theorem execSubTimerExpiry_keepsFit : KeepsFit s (execSubTimerExpiry s) :=
  withImage_quiet fun _ => by split <;> rfl

/-! ## The picture -/

theorem execFrameSync_keepsFit {i : Source} {t : Nat} {r : Bool} : KeepsFit s (execFrameSync i t r s) :=
  withImage_keepsFit fun _ hs => hs.flush (State.syncFrame_notices i r)

theorem execFrameWindowExpiry_keepsFit {i : Source} : KeepsFit s (execFrameWindowExpiry i s) :=
  withImage_keepsFit fun _ hs => by
    split
    · exact hs.conclude (State.windowExpiry_notices _ _)
    · exact hs

theorem execSlateTimerExpiry_keepsFit {r : Bool} : KeepsFit s (execSlateTimerExpiry r s) :=
  withImage_quiet fun _ => by
    split
    · exact congrArg Con.postings (State.captionFrame_con r)
    · rfl

theorem execCaptionSent_keepsFit : KeepsFit s (execCaptionSent s) := by
  unfold execCaptionSent
  split <;> exact next_keepsFit fun hs => hs.same

/-! ## The operator's inputs -/

/-- R159: a stop request at an instant, with the end of its event. -/
theorem State.noticesFit.requestStop {img : Image} {r : StopReason} {d : Byte} {t : Nat}
    (h : s.noticesFit) : (s.requestStop img r d t).noticesFit :=
  h.conclude (State.raiseStop_notices (s := s.reach t) r d)

theorem execStopPress_keepsFit {r : Bool} {t : Nat} : KeepsFit s (execStopPress s r t) :=
  withPress_keepsFit fun _ _ h => h.requestStop

theorem execReleasePress_keepsFit {r : Bool} : KeepsFit s (execReleasePress s r) :=
  withPress_keepsFit fun _ _ h => h.flush State.release_notices

theorem execGoPress_keepsFit {r : Bool} : KeepsFit s (execGoPress s r) :=
  withPress_keepsFit fun _ _ h => h.ite h.same

/-- R131: a TAP reaches CKE and the talk queue. -/
theorem State.tap_con (img : Image) (s : State) : (s.tap img).con = s.con := by
  unfold State.tap
  dsimp only
  split
  · split
    · rfl
    · split <;> rfl
  · rfl

theorem execTapPress_keepsFit {r : Bool} {t : Nat} : KeepsFit s (execTapPress t s r) :=
  withPress_keepsFit fun img u h => h.same (congrArg Con.postings ((u.reach t).tap_con img))

theorem execSafetyAssertion_keepsFit {t : Nat} : KeepsFit s (execSafetyAssertion s t) := by
  unfold execSafetyAssertion
  dsimp only
  split
  · exact next_keepsFit id
  · exact fun hs => withImage_keepsFit (fun _ h => h.requestStop) hs.same

theorem execSafetyDeassertion_keepsFit : KeepsFit s (execSafetyDeassertion s) :=
  next_keepsFit fun hs => hs.same

/-- R195, R196: the ATTEND line posts no notice, with an image held and without. -/
theorem execAttendLineChange_keepsFit {a : Bool} : KeepsFit s (execAttendLineChange a s) :=
  fun hs => withImage_quiet (s := s.onCon fun c => { c with attendLine := a }) (fun _ => rfl) hs.same

/-! ## The console -/

theorem execConsoleStatus_keepsFit : KeepsFit s (execConsoleStatus s) :=
  next_keepsFit fun hs => hs.same

/-- R194: the overflow flag is cleared, and the queue stands. -/
theorem Con.clearOverflow_postings (c : Con) : c.clearOverflow.postings = c.postings := by
  unfold Con.clearOverflow
  split <;> rfl

theorem execOverflowClear_keepsFit : KeepsFit s (execOverflowClear s) :=
  next_keepsFit fun hs => hs.same (Con.clearOverflow_postings _)

theorem execConsolePosition_keepsFit : KeepsFit s (execConsolePosition s) :=
  withShow_quiet fun _ => rfl

theorem execConsoleNotice_keepsFit : KeepsFit s (execConsoleNotice s) := by
  unfold execConsoleNotice State.selectNotice
  split <;> exact next_keepsFit fun hs => hs.same

/-- R193: the selected record leaves the queue, and no other joins it. -/
theorem Con.removeNotice_fits {c : Con} (h : c.notices.length ≤ Config.noticeRoom) :
    c.removeNotice.notices.length ≤ Config.noticeRoom ∧ c.removeNotice.together = c.together := by
  unfold Con.removeNotice
  split
  · exact ⟨Nat.le_trans (List.tail_sublist _).length_le h, rfl⟩
  · exact ⟨h, rfl⟩
  · exact ⟨h, rfl⟩
  · exact ⟨h, rfl⟩

theorem execNoticeRemoval_keepsFit : KeepsFit s (execNoticeRemoval s) :=
  next_keepsFit fun ⟨hlength, hempty⟩ =>
    have ⟨hfits, hsame⟩ := Con.removeNotice_fits hlength
    ⟨hfits, hsame.trans hempty⟩

theorem execConsoleGo_keepsFit {x : BitVec 16} {w : Byte} : KeepsFit s (execConsoleGo x w s) :=
  withShow_quiet fun img => by
    unfold State.takeGo
    split
    · rfl
    · split <;> rfl

theorem execConsoleStop_keepsFit {d : Byte} {t : Nat} : KeepsFit s (execConsoleStop d s t) :=
  withShow_keepsFit fun img hs =>
    (hs.requestStop (img := img) (r := .console) (d := d) (t := t)).same

theorem execConsoleRelease_keepsFit : KeepsFit s (execConsoleRelease s) :=
  withShow_keepsFit fun img hs => (hs.flush (State.release_notices (img := img))).same

theorem execConsoleResume_keepsFit {c b : BitVec 16} {n m : Byte} :
    KeepsFit s (execConsoleResume c b n m s) :=
  withShow_quiet fun img => by
    unfold State.requestResume
    split
    · rfl
    · split
      · unfold State.submitResume
        split <;> rfl
      · rfl

theorem execConsoleCamera_keepsFit {x : Byte} : KeepsFit s (execConsoleCamera x s) :=
  withShow_quiet fun _ => by split <;> rfl

theorem execConsoleTempo_keepsFit {x : BitVec 16} {w : Byte} : KeepsFit s (execConsoleTempo x w s) :=
  withShow_quiet fun _ => by split <;> rfl

theorem execConsoleAttend_keepsFit {a : Byte} : KeepsFit s (execConsoleAttend a s) :=
  withShow_quiet fun _ => by split <;> rfl

theorem execConsoleRestart_keepsFit : KeepsFit s (execConsoleRestart s) :=
  withShow_quiet fun _ => rfl

theorem execUnknownCommand_keepsFit {c : Byte} : KeepsFit s (execUnknownCommand c s) :=
  next_keepsFit fun hs => hs.same

/-! ## The step -/

/-- Every command keeps the queue at 32 records or fewer with no posting left over. -/
theorem exec_keepsFit (c : Instr) : KeepsFit s (exec c s) := by
  cases c with
  | coldReset => exact execColdReset_keepsFit
  | byteArrival b => exact execByteArrival_keepsFit
  | imageAccepted t img => exact execImageAccepted_keepsFit
  | failed r => exact execFailed_keepsFit
  | roundOpening t n => exact execRoundOpening_keepsFit
  | roundTimerExpiry b => exact execRoundTimerExpiry_keepsFit
  | listenTimerExpiry b => exact execListenTimerExpiry_keepsFit
  | markSeen w => exact execMarkSeen_keepsFit
  | voteFieldStart => exact execVoteFieldStart_keepsFit
  | localVoteFieldStart => exact execLocalVoteFieldStart_keepsFit
  | voteFieldComplete v0 v1 v2 v3 => exact execVoteFieldComplete_keepsFit
  | localVoteFieldComplete => exact execLocalVoteFieldComplete_keepsFit
  | lineFault t => exact execLineFault_keepsFit
  | breakStart p w t => exact execBreakStart_keepsFit
  | breakSeen t => exact execBreakSeen_keepsFit
  | talkSlotStart k => exact execTalkSlotStart_keepsFit
  | localTalkSlotStart k => exact execLocalTalkSlotStart_keepsFit
  | sendComplete => exact execSendComplete_keepsFit
  | failedSend => exact execFailedSend_keepsFit
  | talkSlotEnd k => exact execTalkSlotEnd_keepsFit
  | malformedMessage => exact execMalformedMessage_keepsFit
  | tallyArrival => exact execTallyArrival_keepsFit
  | callArrival => exact execCallArrival_keepsFit
  | resumeArrival => exact execResumeArrival_keepsFit
  | haltArrival => exact execHaltArrival_keepsFit
  | tempoArrival => exact execTempoArrival_keepsFit
  | cameraArrival => exact execCameraArrival_keepsFit
  | loadStep p t => exact execLoadStep_keepsFit
  | scanStep t => exact execScanStep_keepsFit
  | actionSent p t => exact execActionSent_keepsFit
  | settleExpiry p => exact execSettleExpiry_keepsFit
  | beatTimerExpiry => exact execBeatTimerExpiry_keepsFit
  | shadowTimerExpiry => exact execShadowTimerExpiry_keepsFit
  | subTimerExpiry => exact execSubTimerExpiry_keepsFit
  | frameSync i t r => exact execFrameSync_keepsFit
  | frameWindowExpiry i => exact execFrameWindowExpiry_keepsFit
  | slateTimerExpiry r => exact execSlateTimerExpiry_keepsFit
  | captionSent => exact execCaptionSent_keepsFit
  | stopPress r t => exact execStopPress_keepsFit
  | releasePress r => exact execReleasePress_keepsFit
  | goPress r => exact execGoPress_keepsFit
  | tapPress t r => exact execTapPress_keepsFit
  | safetyAssertion t => exact execSafetyAssertion_keepsFit
  | safetyDeassertion => exact execSafetyDeassertion_keepsFit
  | attendLineChange a => exact execAttendLineChange_keepsFit
  | consoleStatus => exact execConsoleStatus_keepsFit
  | overflowClear => exact execOverflowClear_keepsFit
  | consolePosition => exact execConsolePosition_keepsFit
  | consoleNotice => exact execConsoleNotice_keepsFit
  | noticeRemoval => exact execNoticeRemoval_keepsFit
  | consoleGo x w => exact execConsoleGo_keepsFit
  | consoleStop d t => exact execConsoleStop_keepsFit
  | consoleRelease => exact execConsoleRelease_keepsFit
  | consoleResume c b n m => exact execConsoleResume_keepsFit
  | consoleCamera x => exact execConsoleCamera_keepsFit
  | consoleTempo x w => exact execConsoleTempo_keepsFit
  | consoleAttend a => exact execConsoleAttend_keepsFit
  | consoleRestart => exact execConsoleRestart_keepsFit
  | unknownCommand c => exact execUnknownCommand_keepsFit (c := c)
  | warmReset t => exact execWarmReset_keepsFit
  | characterReceived p w => exact execCharacterReceived_keepsFit
  | receiverResynchronised => exact execReceiverResynchronised_keepsFit

end

/-- Settles O57: every command keeps the claim; an event posts apart from the queue, and its end moves each posting
into the queue only where there is room. -/
theorem stepKeepsNoticesFit : Obligations.StepKeepsNoticesFit := by
  unfold Obligations.StepKeepsNoticesFit
  intro s t hs h
  unfold step at h
  split at h
  · exact next_keepsFit id hs t h
  next c rest _ =>
    have hrest : ({ s with pending := rest } : State).noticesFit := hs
    exact exec_keepsFit c hrest t h

end Sys2Proof.Machine
end

section
/-! One step (section 0.6): its equation for each shape of the queue. -/

namespace Sys2Proof.Machine

section
variable {s : State} {c : Instr} {rest : List Instr}

theorem step_of_pending_cons (h : s.pending = c :: rest) :
    step s = exec c { s with pending := rest } := by
  simp only [step, h]

theorem step_of_pending_nil (h : s.pending = []) : step s = .next s := by
  simp only [step, h]

end

/-- Settles O1: the step's equation for a queue with a front command, and the one for the empty queue. -/
theorem stepTakesFrontCommand : Obligations.StepTakesFrontCommand := by
  unfold Obligations.StepTakesFrontCommand
  constructor
  · intro s c rest hfront
    exact step_of_pending_cons hfront
  · intro s hempty
    exact step_of_pending_nil hempty

end Sys2Proof.Machine
end
